-- ==== Sys2Proof/Word.lean ====
section
/-! DEFINITION. The plain quantities of the PG316: bytes, numbers of stations, inputs, points, entries and lines,
line time and oscillator time, the clock class, dates and journal records (chapters 00, 01 and 05 of the spec). -/

namespace Sys2Proof

/-- One byte of a telegram or of the configuration record. -/
abbrev Byte := BitVec 8

/-- A station number, 0–31 (R1). -/
abbrev Station := Fin 32

/-- A field input number, 0–63 (R1). -/
abbrev InputNo := Fin 64

/-- A point number, 0–31 (R1). -/
abbrev PointNo := Fin 32

/-- A check entry number, 0–255 (R1). -/
abbrev EntryNo := Fin 256

/-- An impulse line number, 0–3 (R1). -/
abbrev DialNo := Fin 4

/-- A telegram class, 0–3 (R48). -/
abbrev TelegramClass := Fin 4

/-- A journal number: a 32-bit serial number that wraps (R85). -/
abbrev JournalNo := BitVec 32

/-- Line time in whole microseconds from day 0 (R2). The bound of 56 bits is kept by the clock unit, not by the type. -/
abbrev LineTime := Nat

/-- Oscillator time, counted in periods of the 10 MHz station oscillator (R19). -/
abbrev OscTime := Nat

/-- The four clock classes (R9). -/
inductive ClockClass where
  | ref | agreed | drifting | unset
  deriving DecidableEq, Repr, Inhabited

/-- The number of a class as beacons and records carry it (R9): a higher number is a worse class. -/
def ClockClass.number : ClockClass → Nat
  | .ref => 0
  | .agreed => 1
  | .drifting => 2
  | .unset => 3

/-- A date: a line time and the clock class held when it was taken (R10). -/
structure Date where
  time : LineTime
  cls : ClockClass
  deriving DecidableEq, Repr, Inhabited

/-- The level of an input after polarity (R67). -/
inductive Level where
  | inactive | active
  deriving DecidableEq, Repr, Inhabited

/-- The eleven record kinds (R86), and the five numbers of the 4-bit field that name no kind. -/
inductive RecordKind where
  | input | chatter | settled | point | check | clock | mark | hold | service | dial | restart
  | unused (n : Fin 5)
  deriving DecidableEq, Repr, Inhabited

/-- A journal record's eight fields (R86). The value is read as a signed number. -/
structure Record where
  number : JournalNo
  date : Date
  kind : RecordKind
  uncertain : Bool
  valuePresent : Bool
  subject : Byte
  code : Byte
  value : BitVec 32
  deriving DecidableEq, Repr, Inhabited

/-- Replace one place of a table of fixed size. -/
abbrev setAt {α : Type} {n : Nat} (v : Vector α n) (i : Fin n) (x : α) : Vector α n := v.set i.val x i.isLt

end Sys2Proof
end

