-- ==== Sys2Proof/Config.lean ====
section
/-! DEFINITION. What one part fixes: the numbers the spec states, and the free values, opaque constants that no proof can
evaluate, for the values and the orders the spec leaves open. -/

namespace Sys2Proof

/-! ### Numbers the spec states -/

/-- The greatest line time, 2^56 − 1 µs (R2). -/
def Config.maxLineTime : Nat := 72057594037927935

/-- Units of the fraction of a microsecond in one microsecond: with rates in 0.01 ppm one oscillator period adds a whole
number of these units (R3). -/
def Config.fractionUnits : Nat := 1000000000

/-- Oscillator periods in one microsecond (00_scope: 10,000,000 periods to the second). -/
def Config.periodsPerMicrosecond : Nat := 10

/-- Oscillator periods in one millisecond. -/
def Config.periodsPerMillisecond : Nat := 10000

/-- Oscillator periods in one second. -/
def Config.periodsPerSecond : Nat := 10000000

/-- Oscillator periods between two samples: 100 µs (R68). -/
def Config.samplePeriod : Nat := 1000

/-- Records the journal ring holds (R84). -/
def Config.journalSize : Nat := 4096

/-- Records the announcement queue holds (R103). -/
def Config.queueSize : Nat := 64

/-- Records the hold store holds (R172). -/
def Config.storeSize : Nat := 1024

/-- Records in the hold store from which the HOLD source is live (R173). -/
def Config.storeWarning : Nat := 922

/-- Holds the hold table holds (R167). -/
def Config.holdTableSize : Nat := 4

/-- Entries the watch table holds (R113). -/
def Config.watchSize : Nat := 48

/-- Answers the answer queue holds (R193). -/
def Config.answerQueueSize : Nat := 4

/-- MARK telegrams the outgoing mark list holds (R164). -/
def Config.markListSize : Nat := 8

/-- Attempts after which a telegram is discarded (R59). -/
def Config.maxAttempts : Nat := 8

/-- Bytes of the configuration record (R199, R200). -/
def Config.recordLength : Nat := 838

/-- Microseconds in one day (R2). -/
def Config.day : Nat := 86400000000

/-- Microseconds of half a day, one turn of a dial (R181). -/
def Config.halfDay : Nat := 43200000000

/-! ### Free values: nothing constrains them, and no statement may rest on one -/

/-- Which of several things that come together is taken first, and whether a walk's next visit comes before the next
oscillator period (R88, R95, R168, R172 leave both open). Applied to the counter `choices` of the state. -/
opaque Config.tie : Nat → Nat

/-- The level that a heard INPUT or SETTLED record with a code outside its kind's table gives (R114 states none). -/
opaque Config.levelOfCode : Byte → Level

/-- The UNCERTAIN flag of the records for which no rule states it: CLOCK, RESTART and SERVICE records.
Applied to the kind and to the journal number. -/
opaque Config.unstatedUncertain : RecordKind → JournalNo → Bool

/-- The fields of answers for which the spec states no content in some states. -/
inductive UnstatedField where
  | checkStation          -- READ CHECK, the station of a POINT subject (R160)
  | viewLevel             -- READ POINT, the level of a reference that is not KNOWN (R140)
  | outcomeDate           -- READ POINT, the date of the last outcome when there is none (R140)
  | lastStroke            -- READ POINT, the last stroke when none was worked out (R140)
  | lastOperate           -- READ POINT, the last operate time when none was worked out (R140)
  deriving DecidableEq, Repr, Inhabited

/-- The content of such a field, applied to the counter `choices` of the state. -/
opaque Config.unstatedAnswer : UnstatedField → Nat → Nat

/-- The polarity (true for INVERTED) of a channel whose settings come from no record (R201 states its enable only). -/
opaque Config.unconfiguredInverted : InputNo → Bool

/-- The kind (true for PULSE) of a channel whose settings come from no record. -/
opaque Config.unconfiguredPulse : InputNo → Bool

/-- The filter time in ms of a channel whose settings come from no record. -/
opaque Config.unconfiguredFilter : InputNo → Nat

/-- Whether an impulse line whose settings come from no record has a step of 60 s (R201 states its enable only). -/
opaque Config.unconfiguredLongStep : DialNo → Bool

/-- The pulse width in ms of an impulse line whose settings come from no record. -/
opaque Config.unconfiguredWidth : DialNo → Nat

/-- The catch-up spacing in s of an impulse line whose settings come from no record. -/
opaque Config.unconfiguredSpacing : DialNo → Nat

end Sys2Proof
end

