-- ==== Sys2Proof/Syntax.lean ====
section
/-! DEFINITION. The commands of the PG316: one constructor of `Instr` for each row of spec/opcode_table.json, with the
operands that the row's own rule names. -/

namespace Sys2Proof

/-- What one bit-time on the timing line shows (R46, R50): a 0 (driven, released), a 1 (released, driven), both halves driven,
or neither half driven. -/
inductive BitTime where
  | zero | one | both | quiet
  deriving DecidableEq, Repr, Inhabited

/-- A telegram between its start sequence and its check (R48): destination, source, kind and payload bytes. The length field
is the number of payload bytes. -/
structure Telegram where
  dest : BitVec 6
  source : BitVec 5
  kind : BitVec 4
  payload : List Byte
  deriving DecidableEq, Repr, Inhabited

/-- The commands and events of spec/opcode_table.json, in the table's order. A query carries its source station, its tag and its
argument bytes; its destination is this station (R52). Dates of received telegrams come from START_SEQUENCE_HEARD. -/
inductive Instr where
  /-- POWER_ON (R202). -/
  | powerOn
  /-- RESTART_PIN (R202). -/
  | restartPin
  /-- CONFIG_READ_BEGIN (R199): the five straps, SN0 the least significant bit. -/
  | configReadBegin (straps : BitVec 5)
  /-- CONFIG_ATTEMPT_RETRY (R199). -/
  | configAttemptRetry
  /-- CONFIG_READ_END (R199): the bytes the memory acknowledged in the attempt that ended the read. -/
  | configReadEnd (bytes : List Byte)
  /-- SAMPLE (R68): contact closed for each field input, RPPS active, RSTN active, current on each sense input. -/
  | sample (contacts : BitVec 64) (reference : Bool) (restart : Bool) (sense : BitVec 4)
  /-- ACCEPTANCE (R70) of one channel's run. -/
  | acceptance (input : InputNo)
  /-- START_RUN_ACCEPTANCE (R75) of one channel's start run. -/
  | startRunAcceptance (input : InputNo)
  /-- CHATTER_SECOND_END (R78). -/
  | chatterSecondEnd
  /-- REFERENCE_MESSAGE (R13): the day and the second of day of a complete message. -/
  | referenceMessage (day second : Nat)
  /-- REFERENCE_PULSE (R14). -/
  | referencePulse
  /-- REFERENCE_LOSS_TIMEOUT (R16). -/
  | referenceLossTimeout
  /-- INTERVAL_END (R22). -/
  | intervalEnd
  /-- FAST_SLEW_END (R7). -/
  | fastSlewEnd
  /-- BEACON_PHASE (R23). -/
  | beaconPhase
  /-- LINE_FREE (R47). -/
  | lineFree
  /-- CONTENTION_SLOT (R55): the station's own slot of one class. -/
  | contentionSlot (cls : TelegramClass)
  /-- FAIRNESS_ROUND_END (R57). -/
  | fairnessRoundEnd
  /-- START_SEQUENCE_HEARD (R57). -/
  | startSequenceHeard
  /-- MISMATCH (R59). -/
  | mismatch
  /-- TELEGRAM_SENT (R58). -/
  | telegramSent
  /-- TELEGRAM_DROPPED (R50): the bit-times seen, from the first driven half-bit after free. -/
  | telegramDropped (seen : List BitTime)
  /-- DUPLICATE_STATION_TELEGRAM (R61): the telegram received. -/
  | duplicateStationTelegram (telegram : Telegram)
  /-- TELEGRAM_IGNORED (R52): the telegram received. -/
  | telegramIgnored (telegram : Telegram)
  /-- BEACON (R25): source, class, agreement state code, alarm-standing flag, transmit time. -/
  | beacon (source : Station) (cls : ClockClass) (stateCode : BitVec 3) (alarm : Bool) (transmit : BitVec 56)
  /-- MARK (R165): source (the originator), mark number, reason, subject, mark time, pre- and post-window in s. -/
  | mark (source : Station) (number reason subject : Byte) (time : BitVec 56) (pre post : BitVec 16)
  /-- NEWS (R111): source, sequence, gap count, records. -/
  | news (source : Station) (sequence : BitVec 16) (gap : Byte) (records : List Record)
  /-- UNKNOWN_QUERY (R192): a query whose kind is none of the fourteen. -/
  | unknownQuery (source : Station) (tag kind : Byte) (args : List Byte)
  /-- POST_CHECK (R147). -/
  | postCheck (source : Station) (tag : Byte) (args : List Byte)
  /-- WITHDRAW_CHECK (R159). -/
  | withdrawCheck (source : Station) (tag : Byte) (args : List Byte)
  /-- READ_CHECK (R160). -/
  | readCheck (source : Station) (tag : Byte) (args : List Byte)
  /-- HISTORY (R92). -/
  | history (source : Station) (tag : Byte) (args : List Byte)
  /-- HISTORY_CANCEL (R100). -/
  | historyCancel (source : Station) (tag : Byte) (args : List Byte)
  /-- RAISE_MARK (R175). -/
  | raiseMark (source : Station) (tag : Byte) (args : List Byte)
  /-- RELEASE_HOLD (R176). -/
  | releaseHold (source : Station) (tag : Byte) (args : List Byte)
  /-- SET_DIAL (R189). -/
  | setDial (source : Station) (tag : Byte) (args : List Byte)
  /-- READ_DIAL (R190). -/
  | readDial (source : Station) (tag : Byte) (args : List Byte)
  /-- SERVICE_RESET (R141). -/
  | serviceReset (source : Station) (tag : Byte) (args : List Byte)
  /-- READ_POINT (R140). -/
  | readPoint (source : Station) (tag : Byte) (args : List Byte)
  /-- READ_STATUS (R194). -/
  | readStatus (source : Station) (tag : Byte) (args : List Byte)
  /-- CLEAR_ALARMS (R197). -/
  | clearAlarms (source : Station) (tag : Byte) (args : List Byte)
  /-- RESTART (R203). -/
  | restart (source : Station) (tag : Byte) (args : List Byte)
  /-- NEWS_BATCH_WAIT_END (R107). -/
  | newsBatchWaitEnd
  /-- HISTORY_VISIT (R95). -/
  | historyVisit
  /-- HOLD_WALK_VISIT (R168): the hold, by originator and mark number. -/
  | holdWalkVisit (originator : Station) (number : Byte)
  /-- HOLD_CLOSE_DEADLINE (R171): the hold, by originator and mark number. -/
  | holdCloseDeadline (originator : Station) (number : Byte)
  /-- START_DEADLINE (R128) of one point. -/
  | startDeadline (point : PointNo)
  /-- STROKE_DEADLINE (R130) of one point. -/
  | strokeDeadline (point : PointNo)
  /-- CHECK_OPENING (R151) of one check entry. -/
  | checkOpening (entry : EntryNo)
  /-- CHECK_DECISION (R153) of one check entry. -/
  | checkDecision (entry : EntryNo)
  /-- TARGET_CHANGE (R181) of one impulse line. -/
  | targetChange (line : DialNo)
  /-- PULSE_END (R185) of one impulse line. -/
  | pulseEnd (line : DialNo)
  /-- SPACING_WAIT_END (R182) of one impulse line. -/
  | spacingWaitEnd (line : DialNo)
  /-- TEST_WAIT_END (R186) of one impulse line. -/
  | testWaitEnd (line : DialNo)
  /-- TEST_PULSE_END (R186) of one impulse line. -/
  | testPulseEnd (line : DialNo)
  /-- LINE_BUSY (R47). -/
  | lineBusy
  /-- REFERENCE_CHARACTER (R13): the character received, and whether it came with a framing error. -/
  | referenceCharacter (character : Byte) (framingError : Bool)
  /-- BYTE_NOT_ACKNOWLEDGED (R199). -/
  | byteNotAcknowledged
  deriving DecidableEq, Repr

end Sys2Proof
end

