-- ==== Sys2Proof/WellFormed.lean ====
section
/-! DEFINITION. Which commands the line and the pins can deliver at all: the bounds that the layouts of R65, the message form of
R13 and the record of R200 put on the operands that their types leave wider. -/

namespace Sys2Proof

/-- A record as 18 bytes can carry it (R65): its date fits in 7 bytes. -/
def Record.wellFormed (r : Record) : Bool :=
  decide (r.date.time ≤ Config.maxLineTime)

/-- A telegram as the frame can carry it (R48): at most 160 payload bytes. -/
def Telegram.wellFormed (t : Telegram) : Bool :=
  decide (t.payload.length ≤ 160)

/-- A query's arguments fit beside its tag and kind in 160 payload bytes (R48, R65). -/
def argsWellFormed (args : List Byte) : Bool :=
  decide (args.length ≤ 158)

/-- A query kind outside the fourteen of R192. -/
def unknownKind (kind : Byte) : Bool :=
  kind.toNat == 0 || decide (14 < kind.toNat)

/-- The command can be delivered: a NEWS carries 1–8 records (R51), a message carries five digits and five digits (R13), a read
ends within 838 bytes (R199), telegrams and queries fit their frame, UNKNOWN_QUERY is of an unknown kind. -/
def Instr.wellFormed : Instr → Bool
  | .powerOn => true
  | .restartPin => true
  | .configReadBegin _ => true
  | .configAttemptRetry => true
  | .configReadEnd bytes => decide (bytes.length ≤ Config.recordLength)
  | .sample _ _ _ _ => true
  | .acceptance _ => true
  | .startRunAcceptance _ => true
  | .chatterSecondEnd => true
  | .referenceMessage day second => decide (day ≤ 99999) && decide (second ≤ 99999)
  | .referencePulse => true
  | .referenceLossTimeout => true
  | .intervalEnd => true
  | .fastSlewEnd => true
  | .beaconPhase => true
  | .lineFree => true
  | .contentionSlot _ => true
  | .fairnessRoundEnd => true
  | .startSequenceHeard => true
  | .mismatch => true
  | .telegramSent => true
  | .telegramDropped _ => true
  | .duplicateStationTelegram t => t.wellFormed
  | .telegramIgnored t => t.wellFormed
  | .beacon _ _ _ _ _ => true
  | .mark _ _ _ _ _ _ _ => true
  | .news _ _ _ records =>
    decide (1 ≤ records.length) && decide (records.length ≤ 8) && records.all Record.wellFormed
  | .unknownQuery _ _ kind args => unknownKind kind && argsWellFormed args
  | .postCheck _ _ args => argsWellFormed args
  | .withdrawCheck _ _ args => argsWellFormed args
  | .readCheck _ _ args => argsWellFormed args
  | .history _ _ args => argsWellFormed args
  | .historyCancel _ _ args => argsWellFormed args
  | .raiseMark _ _ args => argsWellFormed args
  | .releaseHold _ _ args => argsWellFormed args
  | .setDial _ _ args => argsWellFormed args
  | .readDial _ _ args => argsWellFormed args
  | .serviceReset _ _ args => argsWellFormed args
  | .readPoint _ _ args => argsWellFormed args
  | .readStatus _ _ args => argsWellFormed args
  | .clearAlarms _ _ args => argsWellFormed args
  | .restart _ _ args => argsWellFormed args
  | .newsBatchWaitEnd => true
  | .historyVisit => true
  | .holdWalkVisit _ _ => true
  | .holdCloseDeadline _ _ => true
  | .startDeadline _ => true
  | .strokeDeadline _ => true
  | .checkOpening _ => true
  | .checkDecision _ => true
  | .targetChange _ => true
  | .pulseEnd _ => true
  | .spacingWaitEnd _ => true
  | .testWaitEnd _ => true
  | .testPulseEnd _ => true
  | .lineBusy => true
  | .referenceCharacter _ _ => true
  | .byteNotAcknowledged => true

end Sys2Proof
end

