-- ==== Sys2Proof/Machine/State.lean ====
section
/-! DEFINITION. The state of the PG316, block by block as 00_scope lists them, its power-on values, and one update per block.
Plain data only. -/

namespace Sys2Proof.Machine

/-! ### Why a step can stop -/

/-- Faults. The spec names no event at which the part stops, so there is none: no command ever faults (DESIGN CHOICE, safe, log entry 30). -/
inductive Fault where
  deriving DecidableEq, Repr

/-- Refusals. -/
inductive Refusal where
  /-- Raised by exec's arm of a command that has no meaning yet; safe, since the machine then makes no claim. -/
  | notModelled (mnemonic : String)
  deriving DecidableEq, Repr

/-! ### Clock unit (chapter 01) -/

/-- The clock unit (R2–R9). `osc` counts oscillator periods since power-on and is the base of every oscillator timing (R19). -/
structure Clock where
  osc : OscTime
  lineTime : LineTime
  fraction : Nat
  trim : Int
  slew : Int
  fastSlewEnd : Option OscTime
  cls : ClockClass
  lastC : Option Int
  deriving DecidableEq, Repr

/-- States of the reference port (R12). -/
inductive PortState where
  | notFitted | searching | valid
  deriving DecidableEq, Repr

/-- A label of the time reference: a day and a second of day (R13). -/
structure Label where
  day : Nat
  second : Nat
  deriving DecidableEq, Repr

/-- The reference port (R12–R17). `partialDigits` are the characters of the message under way after its T; `complete` is a
message that has completed at this moment and `pulseSeen` a pulse seen at the latest sample, each until its own event is taken. -/
structure RefPort where
  state : PortState
  partialDigits : Option (List Byte)
  complete : Option Label
  pending : Option (Label × OscTime)
  count : Nat
  lastLabel : Option Label
  lossFrom : Option OscTime
  offset : Option Int
  pulseSeen : Bool
  deriving DecidableEq, Repr

/-! ### Agreement unit (chapter 02) -/

/-- The agreement states (R35). -/
inductive AgreementState where
  | unset | acquiring | locked | holdover | reference
  deriving DecidableEq, Repr

/-- One peer table entry (R27). -/
structure Peer where
  offset : Option Int
  cls : Option ClockClass
  heard : Bool
  streak : Nat
  outlier : Bool
  deriving DecidableEq, Repr

/-- What status keeps of the latest member set (R28): whether it was empty, B and n. -/
structure MemberSummary where
  noPeer : Bool
  best : Option ClockClass
  count : Nat
  deriving DecidableEq, Repr

/-- The agreement unit (R22, R23, R27, R28, R35). `timerFrom` is the oscillator moment from which the interval under way runs. -/
structure Agreement where
  state : AgreementState
  lockCount : Nat
  disputeCount : Nat
  emptyCount : Nat
  timerFrom : Option OscTime
  refOffset : Option Int
  phase : Option LineTime
  lastMidpoint : Option Int
  lastSet : Option MemberSummary
  peers : Vector Peer 32
  deriving DecidableEq, Repr

/-! ### Telegrams the part sends -/

/-- A mark (R162). -/
structure MarkInfo where
  originator : Station
  number : Byte
  reason : Byte
  subject : Byte
  time : LineTime
  pre : Nat
  post : Nat
  deriving DecidableEq, Repr

/-- A NEWS telegram's contents (R106). -/
structure NewsTelegram where
  sequence : BitVec 16
  gap : Nat
  records : List Record
  deriving DecidableEq, Repr

/-- The four items of a beacon (R24). -/
structure BeaconItems where
  cls : ClockClass
  state : AgreementState
  alarm : Bool
  transmit : LineTime
  deriving DecidableEq, Repr

/-- Result codes of answers (R65). -/
inductive Result where
  | ok | accepted | busy | inUse | isEmpty | badValue | past | noTime | noSuch | notYours | watchFull | holdFull
  | notReady | unknownQuery
  deriving DecidableEq, Repr

/-- The payload of a telegram the part sends (R65). A beacon's items are none until they are read as it leaves (R24). -/
inductive Payload where
  | beacon (items : Option BeaconItems)
  | mark (m : MarkInfo)
  | news (n : NewsTelegram)
  | answer (tag kind : Byte) (result : Result) (data : List Byte)
  | history (tag : Byte) (ends overrun : Bool) (skipped : Nat) (records : List Record)
  deriving DecidableEq, Repr

/-- A telegram of the station's own: its destination and its payload. -/
structure OutTelegram where
  dest : BitVec 6
  payload : Payload
  deriving DecidableEq, Repr

/-- A transmit slot (R53), with its attempt count and, while SENDING, the oscillator moment at which the attempt started. -/
inductive Slot where
  | vacant
  | waiting (t : OutTelegram) (attempts : Nat)
  | sending (t : OutTelegram) (attempts : Nat) (since : OscTime)
  deriving DecidableEq, Repr

/-! ### Line controller (chapter 03) -/

/-- What the line controller sees on the line (R47, R50): busy with nothing framed, free and quiet since, a telegram being framed
whose start sequence is not yet whole, a telegram being received with the date of its start sequence, or its own sending. -/
inductive Activity where
  | busy
  | free
  | framing
  | hearing (start : Date)
  | sending
  deriving DecidableEq, Repr

/-- The six line counters (R62). -/
structure LineCounters where
  sent : Nat
  mismatches : Nat
  discards : Nat
  checkFailures : Nat
  duplicates : Nat
  queriesDropped : Nat
  deriving DecidableEq, Repr

/-- The line controller (R46–R64). `running` is whether it sends and receives, `freeAt` the moment of the latest free, `quietFrom` the end
of the last driven half-bit, from which quiet is measured (R47, R64), `fairness` the fairness hold, `newsFilledLast` what the class 2
arbiter remembers (R54), `trouble` the line trouble flag. -/
structure LineControl where
  running : Bool
  activity : Activity
  freeAt : Option OscTime
  quietFrom : Option OscTime
  slots : Vector Slot 4
  fairness : Bool
  newsFilledLast : Bool
  trouble : Bool
  counters : LineCounters
  deriving DecidableEq, Repr

/-! ### Input unit (chapter 04) -/

/-- A channel's settings (R66). -/
structure InputDef where
  enabled : Bool
  inverted : Bool
  pulse : Bool
  filterMs : Nat
  deriving DecidableEq, Repr

/-- The four channel modes (R67). -/
inductive ChannelMode where
  | off | starting | normal | chattering
  deriving DecidableEq, Repr

/-- A run or a start run (R69, R74): its level, its first date, and the sample periods it has lasted. -/
structure Run where
  level : Level
  first : Date
  age : Nat
  deriving DecidableEq, Repr

/-- One input channel (R66–R80). `delivered` is the level, date and class of the last record delivered (R77);
`changed` is whether a change was accepted in the chatter second under way (R80). -/
structure Channel where
  defn : InputDef
  mode : ChannelMode
  reading : Option Level
  accepted : Option Level
  run : Option Run
  lastChange : Option Date
  chatterCount : Nat
  quietCount : Nat
  changed : Bool
  delivered : Option (Level × Date)
  deriving DecidableEq, Repr

/-- The input unit (R68, R78). `nextSample` is when the sample clock next gives a sample (DEDUCED, unsafe, log entry 5), `sampledAt` and
`sampleDate` the latest sample, `secondFrom` the start of the chatter second under way, `secondAwaited` that the next sample begins the
first one. -/
structure InputUnit where
  channels : Vector Channel 64
  nextSample : OscTime
  sampledAt : Option OscTime
  sampleDate : Date
  secondFrom : Option OscTime
  secondAwaited : Bool
  deriving DecidableEq, Repr

/-! ### Journal and history reader (chapter 05) -/

/-- The journal (R84): its records, the oldest first, and the next journal number. -/
structure Journal where
  records : List Record
  next : JournalNo
  deriving DecidableEq, Repr

/-- The modes of a read in service (R91). -/
inductive ReadMode where
  | newsWait | collecting | ready | placed
  deriving DecidableEq, Repr

/-- The source of a read (R91). -/
inductive ReadSource where
  | journal
  | hold (originator : Station) (number : Byte)
  deriving DecidableEq, Repr

/-- A read in service (R91, R94, R96). `next` is the next record of a journal read, `position` that of a hold read; `ends` is the
END flag of the telegram assembled last; `target` is the flush target still awaited, `answered` whether ACCEPTED has finished. -/
structure Read where
  mode : ReadMode
  requester : Station
  tag : Byte
  source : ReadSource
  fromDate : LineTime
  toDate : LineTime
  mask : BitVec 16
  next : JournalNo
  position : Nat
  remaining : Nat
  skipped : Nat
  collected : List Record
  ends : Bool
  target : Option JournalNo
  answered : Bool
  deriving DecidableEq, Repr

/-! ### News unit (chapter 06) -/

/-- The news unit's sender (R105). -/
inductive Sender where
  | idle
  | formed (t : NewsTelegram)
  | placed (t : NewsTelegram)
  deriving DecidableEq, Repr

/-- The four news counters (R118). -/
structure NewsCounters where
  sent : Nat
  discarded : Nat
  refused : Nat
  gapsHeard : Nat
  deriving DecidableEq, Repr

/-- What a point, a check entry or the watch table believes of an input (R77, R113, R121). -/
inductive Condition where
  | neverHeard
  | known (level : Level) (date : Date)
  | uncertain
  | chattering
  | off
  deriving DecidableEq, Repr

/-- A watch table entry (R113). -/
structure WatchEntry where
  station : Station
  input : InputNo
  refs : Nat
  condition : Condition
  deriving DecidableEq, Repr

/-- The news unit (R103–R119): the announcement queue, oldest first, each record with the moment it joined; the gap count; the
sender; the flush target; and what is heard of each station. -/
structure NewsUnit where
  queue : List (Record × OscTime)
  gap : Nat
  nextSequence : BitVec 16
  sender : Sender
  flushTarget : Option JournalNo
  counters : NewsCounters
  lastSequence : Vector (Option (BitVec 16)) 32
  heard : Vector Bool 32
  silence : Vector Nat 32
  deriving DecidableEq, Repr

/-! ### Point monitor (chapter 07) -/

/-- The two sides of a point, and the two directions of a movement (R124). -/
inductive Side where
  | normal | reverse
  deriving DecidableEq, Repr

/-- The four input references of a point, in their order (R120). -/
inductive Ref where
  | normalCall | reverseCall | normalDetection | reverseDetection
  deriving DecidableEq, Repr

/-- One value for each of the four references. -/
structure Four (α : Type) where
  normalCall : α
  reverseCall : α
  normalDetection : α
  reverseDetection : α
  deriving DecidableEq, Repr

/-- A point definition (R120). -/
structure PointDef where
  refs : Four (Station × InputNo)
  startMs : Nat
  strokeMs : Nat
  interval : Nat
  markOnFailure : Bool
  deriving DecidableEq, Repr

/-- A point's state (R124, R133): `detected .normal` is DETECTED_N. A movement carries its direction, its call date, its loss date
and its one deadline. -/
inductive PointState where
  | detected (side : Side)
  | called (toward : Side) (call : Date) (deadline : LineTime)
  | moving (toward : Side) (call loss : Date) (deadline : LineTime)
  | overtime (toward : Side) (call loss : Date)
  | lost
  | both
  | unknown
  deriving DecidableEq, Repr

/-- The outcomes of a point (R135). -/
inductive PointOutcome where
  | moved | movedSlow | movedLate | returned | overtime | failedToStart | lostDetection | detectionRestored | bothDetected
  | unknown | known
  deriving DecidableEq, Repr

/-- A stroke trend (R136). -/
structure Trend where
  value : Option Nat
  count : Nat
  deriving DecidableEq, Repr

/-- One point record (R120–R142). `noRoom` marks a definition the watch table had no room for (R115). -/
structure Point where
  defn : Option PointDef
  noRoom : Bool
  state : PointState
  views : Four Condition
  startFailed : Bool
  lastOutcome : Option (PointOutcome × Date)
  lastStroke : Option Nat
  lastOperate : Option Nat
  trendNormal : Trend
  trendReverse : Trend
  service : Nat
  serviceDue : Bool
  deriving DecidableEq, Repr

/-! ### Check table (chapter 08) -/

/-- The edge of an INPUT subject (R144). -/
inductive Edge where
  | toActive | toInactive | any
  deriving DecidableEq, Repr

/-- A check entry's subject (R144). -/
inductive Subject where
  | input (station : Station) (input : InputNo) (edge : Edge)
  | point (point : PointNo) (target : Side)
  deriving DecidableEq, Repr

/-- A check entry's view of its subject (R149, R150). -/
inductive SubjectView where
  | neverHeard | known | uncertain | chattering | unknown
  deriving DecidableEq, Repr

/-- The outcomes of a check (R153). -/
inductive CheckOutcome where
  | onTime | early | late | missed
  deriving DecidableEq, Repr

/-- The states of a check entry that is not EMPTY (R143). -/
inductive CheckPhase where
  | waiting | opened | matched | done
  deriving DecidableEq, Repr

/-- An entry's last outcome, with its UNCERTAIN flag and its deviation in tenths of a second (R143). -/
structure LastCheck where
  outcome : CheckOutcome
  uncertain : Bool
  tenths : Int
  deriving DecidableEq, Repr

/-- A check entry that is not EMPTY (R143). -/
structure CheckEntry where
  phase : CheckPhase
  subject : Subject
  due : LineTime
  openAt : LineTime
  closeAt : LineTime
  watchBefore : Nat
  watchAfter : Nat
  earlyTolerance : Nat
  lateTolerance : Nat
  period : Nat
  repeatsLeft : Nat
  settle : Nat
  markOnMiss : Bool
  view : SubjectView
  doubt : Bool
  held : Option Date
  deadline : Option LineTime
  last : Option LastCheck
  deriving DecidableEq, Repr

/-! ### Mark unit (chapter 09) -/

/-- The states of a hold (R167). -/
inductive HoldState where
  | copying | filling | closed
  deriving DecidableEq, Repr

/-- A hold (R167). `walk` is the journal number of the next record to visit, `deadline` the close deadline, held while the hold is not
CLOSED; once it has fallen due in COPYING, `closeDue` is set (R171). -/
structure Hold where
  mark : MarkInfo
  start : LineTime
  stop : LineTime
  cls : ClockClass
  state : HoldState
  truncated : Bool
  isPartial : Bool
  walk : Option JournalNo
  deadline : Option LineTime
  closeDue : Bool
  inUse : Bool
  records : List Record
  deriving DecidableEq, Repr

/-- The mark unit (R162, R164, R167): the hold table in the order its holds were made. The hold store is the records of its
holds together (R172). -/
structure MarkUnit where
  own : Byte
  outgoing : List MarkInfo
  notSent : Nat
  holds : List Hold
  deriving DecidableEq, Repr

/-! ### Dial drivers (chapter 10) -/

/-- An impulse line's settings (R179): step in s, pulse width and catch-up spacing in ms as in force. -/
structure DialDef where
  enabled : Bool
  step : Nat
  widthMs : Nat
  spacingMs : Nat
  deriving DecidableEq, Repr

/-- The states of an impulse line (R180). -/
inductive DialState where
  | unset | noTime | idle | pulsing | catchingUp | holding | fault
  deriving DecidableEq, Repr

/-- One impulse line (R180). `negative` is the next polarity; `last` the start of the last pulse and whether it succeeded;
`test` and `sensed` concern the pulse under way; `wait` is when the one spacing or test wait runs out. -/
structure Dial where
  defn : DialDef
  position : Option Nat
  positionStep : Nat
  negative : Bool
  state : DialState
  failed : Nat
  target : Option Nat
  deadline : Option LineTime
  last : Option (OscTime × Bool)
  test : Bool
  sensed : Bool
  wait : Option OscTime
  deriving DecidableEq, Repr

/-! ### Query and status unit (chapter 11) -/

/-- An answer in the answer queue (R193, R194): the data of its parts not yet finished, and whether it is the ACCEPTED answer of
the read in service or the OK answer of a pending RESTART. -/
structure Answer where
  dest : Station
  tag : Byte
  kind : Byte
  result : Result
  parts : List (List Byte)
  forRead : Bool
  forRestart : Bool
  deriving DecidableEq, Repr

/-- The cause of the latest start (R195). -/
inductive RestartCause where
  | powerOn | pin | query
  deriving DecidableEq, Repr

/-- The query and status unit (R193, R196, R203). -/
structure QueryUnit where
  answers : List Answer
  restartPending : Bool
  latched : BitVec 11
  enables : BitVec 11
  cause : RestartCause
  deriving DecidableEq, Repr

/-- The configuration state (R195, R199). -/
inductive ConfigState where
  | reading | configured | unconfigured
  deriving DecidableEq, Repr

/-- Why a record is unusable (R195, R200). -/
inductive Unusable where
  | none | absent | versionOrLength | check
  deriving DecidableEq, Repr

/-- Where the configuration read stands (R199): not begun, an attempt under way, waiting for the next attempt, failed for the
third time, or over. -/
inductive ReadPhase where
  | awaited
  | attempt
  | retryAt (moment : OscTime)
  | failed
  | over
  deriving DecidableEq, Repr

/-- The configuration read and what it left (R195, R199): attempts that have failed, why the record was unusable, its check field,
and the station number as read from the straps. -/
structure ConfigUnit where
  state : ConfigState
  phase : ReadPhase
  failures : Nat
  reason : Unusable
  check : BitVec 16
  station : Station
  deriving DecidableEq, Repr

/-- The global settings in force (R201). -/
structure Settings where
  bitRate : Nat
  interval : Nat
  delay : Nat
  thresholdMs : Nat
  watermark : Nat
  settle : Nat
  chatterLimit : Nat
  referenceFitted : Bool
  deriving DecidableEq, Repr

/-- The pins the part reads, as last seen: contacts closed, RPPS, RSTN, current on ISN0–ISN3, straps; whether a sample has been
taken since power-on; and a restart edge seen at the latest sample whose own event is not yet taken (R202). Levels at reset are chosen (DESIGN CHOICE,
unsafe, log entry 6). -/
structure Pins where
  contacts : BitVec 64
  reference : Bool
  restart : Bool
  sense : BitVec 4
  straps : BitVec 5
  sampled : Bool
  restartEdge : Bool
  deriving DecidableEq, Repr

end Sys2Proof.Machine

namespace Sys2Proof.Machine

/-! ### The whole state -/

/-- The state of the part: its blocks (00_scope), its pins, the counter that free values are applied to, and the commands waiting. -/
structure State where
  clock : Clock
  port : RefPort
  agree : Agreement
  line : LineControl
  input : InputUnit
  journal : Journal
  reader : Option Read
  news : NewsUnit
  watch : List WatchEntry
  points : Vector Point 32
  checks : Vector (Option CheckEntry) 256
  marks : MarkUnit
  dials : Vector Dial 4
  query : QueryUnit
  config : ConfigUnit
  settings : Settings
  pins : Pins
  choices : Nat
  pending : List Instr
  deriving DecidableEq, Repr

/-! ### Power-on values -/

/-- A peer table entry cleared (R27). -/
def Peer.cleared : Peer :=
  { offset := none, cls := none, heard := false, streak := 0, outlier := false }

/-- A channel at power-on (R67, R83). Its settings are chosen: polarity NORMAL, kind STATE, filter 1 ms (DESIGN CHOICE, unsafe, log entry 26). -/
def Channel.atPowerOn : Channel :=
  { defn := { enabled := false, inverted := false, pulse := false, filterMs := 1 }
    mode := .off, reading := none, accepted := none, run := none, lastChange := none
    chatterCount := 0, quietCount := 0, changed := false, delivered := none }

/-- A point at power-on (R142). The views it does not hold yet stand at NEVER_HEARD (DESIGN CHOICE, unsafe, log entry 38). -/
def Point.atPowerOn : Point :=
  { defn := none, noRoom := false, state := .unknown
    views := { normalCall := .neverHeard, reverseCall := .neverHeard
               normalDetection := .neverHeard, reverseDetection := .neverHeard }
    startFailed := false, lastOutcome := none, lastStroke := none, lastOperate := none
    trendNormal := { value := none, count := 0 }, trendReverse := { value := none, count := 0 }
    service := 0, serviceDue := false }

/-- An impulse line at power-on (R180). Its settings are chosen: step 30 s, width 100 ms, spacing 1 s (DESIGN CHOICE, unsafe, log entry 26). -/
def Dial.atPowerOn : Dial :=
  { defn := { enabled := false, step := 30, widthMs := 100, spacingMs := 1000 }
    position := none, positionStep := 30, negative := false, state := .unset, failed := 0
    target := none, deadline := none, last := none, test := false, sensed := false, wait := none }

/-- The six line counters at 0 (R62). -/
def LineCounters.zero : LineCounters :=
  { sent := 0, mismatches := 0, discards := 0, checkFailures := 0, duplicates := 0, queriesDropped := 0 }

/-- The news counters at 0 (R118). -/
def NewsCounters.zero : NewsCounters :=
  { sent := 0, discarded := 0, refused := 0, gapsHeard := 0 }

/-- The UNCONFIGURED settings (R201), which also stand before the first read (DESIGN CHOICE, unsafe, log entry 26). -/
def Settings.unconfigured : Settings :=
  { bitRate := 250, interval := 8, delay := 0, thresholdMs := 2, watermark := 4, settle := 2
    chatterLimit := 20, referenceFitted := false }

/-- The machine as power is applied: every block at its power-on value (R20, R45, R64, R83, R91, R110, R119, R142, R161, R178, R191,
R196), before the RESTART record of POWER_ON is written (R202; DESIGN CHOICE, log entry 4). CLOCK is latched, since the station is Unset
(R196). -/
def State.reset : State :=
  { clock :=
      { osc := 0, lineTime := 0, fraction := 0, trim := 0, slew := 0, fastSlewEnd := none, cls := .unset, lastC := none }
    port :=
      { state := .notFitted, partialDigits := none, complete := none, pending := none, count := 0, lastLabel := none
        lossFrom := none, offset := none, pulseSeen := false }
    agree :=
      { state := .unset, lockCount := 0, disputeCount := 0, emptyCount := 0, timerFrom := none, refOffset := none
        phase := none, lastMidpoint := none, lastSet := none, peers := Vector.replicate 32 Peer.cleared }
    line :=
      { running := false, activity := .busy, freeAt := none, quietFrom := none, slots := Vector.replicate 4 .vacant
        fairness := false, newsFilledLast := false, trouble := false, counters := LineCounters.zero }
    input :=
      { channels := Vector.replicate 64 Channel.atPowerOn, nextSample := 0, sampledAt := none
        sampleDate := { time := 0, cls := .unset }, secondFrom := none, secondAwaited := false }
    journal := { records := [], next := 0 }
    reader := none
    news :=
      { queue := [], gap := 0, nextSequence := 0, sender := .idle, flushTarget := none, counters := NewsCounters.zero
        lastSequence := Vector.replicate 32 none, heard := Vector.replicate 32 false, silence := Vector.replicate 32 0 }
    watch := []
    points := Vector.replicate 32 Point.atPowerOn
    checks := Vector.replicate 256 none
    marks := { own := 0, outgoing := [], notSent := 0, holds := [] }
    dials := Vector.replicate 4 Dial.atPowerOn
    query := { answers := [], restartPending := false, latched := 1, enables := BitVec.allOnes 11, cause := .powerOn }
    config := { state := .reading, phase := .awaited, failures := 0, reason := .none, check := 0, station := 0 }
    settings := Settings.unconfigured
    pins :=
      { contacts := 0, reference := false, restart := false, sense := 0, straps := 0, sampled := false
        restartEdge := false }
    choices := 0
    pending := [] }

/-! ### One update per block -/

def State.setClock (s : State) (x : Clock) : State := { s with clock := x }
def State.setPort (s : State) (x : RefPort) : State := { s with port := x }
def State.setAgree (s : State) (x : Agreement) : State := { s with agree := x }
def State.setLine (s : State) (x : LineControl) : State := { s with line := x }
def State.setInput (s : State) (x : InputUnit) : State := { s with input := x }
def State.setJournal (s : State) (x : Journal) : State := { s with journal := x }
def State.setReader (s : State) (x : Option Read) : State := { s with reader := x }
def State.setNews (s : State) (x : NewsUnit) : State := { s with news := x }
def State.setWatch (s : State) (x : List WatchEntry) : State := { s with watch := x }
def State.setPoints (s : State) (x : Vector Point 32) : State := { s with points := x }
def State.setChecks (s : State) (x : Vector (Option CheckEntry) 256) : State := { s with checks := x }
def State.setMarks (s : State) (x : MarkUnit) : State := { s with marks := x }
def State.setDials (s : State) (x : Vector Dial 4) : State := { s with dials := x }
def State.setQuery (s : State) (x : QueryUnit) : State := { s with query := x }
def State.setConfig (s : State) (x : ConfigUnit) : State := { s with config := x }
def State.setSettings (s : State) (x : Settings) : State := { s with settings := x }
def State.setPins (s : State) (x : Pins) : State := { s with pins := x }
def State.setChoices (s : State) (x : Nat) : State := { s with choices := x }
def State.setPending (s : State) (x : List Instr) : State := { s with pending := x }

end Sys2Proof.Machine
end

