-- ==== Sys2Proof/Machine/Bytes.lean ====
section
/-! DEFINITION. Byte order, rounding, saturation and clamping: the arithmetic conventions of R1 and R65. -/

namespace Sys2Proof.Machine

/-- A number in `n` bytes, most significant first (R65). -/
def beBytes : Nat → Nat → List Byte
  | 0, _ => []
  | n + 1, v => BitVec.ofNat 8 (v / 256 ^ n) :: beBytes n v

/-- The number that bytes spell, most significant first (R65). -/
def beNat (bytes : List Byte) : Nat :=
  bytes.foldl (fun acc b => acc * 256 + b.toNat) 0

/-- A signed number in `n` bytes, two's complement (R65). -/
def beInt (n : Nat) (v : Int) : List Byte :=
  beBytes n (v % (256 : Int) ^ n).toNat

/-- The signed number that `n` bytes spell in two's complement. -/
def beToInt (bytes : List Byte) : Int :=
  let v := beNat bytes
  if v * 2 < 256 ^ bytes.length then (v : Int) else (v : Int) - (256 : Int) ^ bytes.length

/-- A field that is none: all its bytes at their highest value (R194). -/
def beNone (n : Nat) : List Byte :=
  List.replicate n (BitVec.allOnes 8)

/-- One byte. -/
def byteOf (v : Nat) : Byte := BitVec.ofNat 8 v

/-- A flag in one byte. -/
def flagByte (b : Bool) : Byte := if b then 1 else 0

/-- Byte `i` of a list, 0 beyond its end. -/
def byteAt (bytes : List Byte) (i : Nat) : Byte := bytes.getD i 0

/-- The number in the `n` bytes from byte `i`. -/
def numberAt (bytes : List Byte) (i n : Nat) : Nat := beNat ((bytes.drop i).take n)

/-- A value clamped to a range (R1). -/
def clamp (lo hi v : Nat) : Nat := max lo (min hi v)

/-- A signed value clamped to a range (R1). -/
def clampInt (lo hi v : Int) : Int := max lo (min hi v)

/-- A count that saturates (R1). -/
def satAdd (top v k : Nat) : Nat := min top (v + k)

/-- A quotient rounded to nearest, halves away from zero (R1). The divisor is above 0. -/
def roundHalfAway (n : Int) (d : Nat) : Int :=
  let q : Int := ((2 * n.natAbs + d) / (2 * d) : Nat)
  if n < 0 then -q else q

/-- Line time with a signed amount added, kept within the 56-bit count (R2), at 0 as at its end (DEDUCED, unsafe, log entry 24). -/
def addLineTime (t : LineTime) (c : Int) : LineTime :=
  min Config.maxLineTime ((t : Int) + c).toNat

/-- Oscillator periods in a number of milliseconds (R19). -/
def msPeriods (ms : Nat) : Nat := ms * Config.periodsPerMillisecond

/-- Oscillator periods in a number of seconds (R19). -/
def secondPeriods (s : Nat) : Nat := s * Config.periodsPerSecond

end Sys2Proof.Machine
end

