-- ==== Sys2Proof/Machine/Layout.lean ====
section
/-! DEFINITION. The layouts and codes of R65: classes, states, records, telegram payloads; the frame of R48 as bits, its check
(R49), and how a receiver frames bits and sorts what it received (R50–R52). -/

namespace Sys2Proof.Machine

/-! ### Codes -/

/-- The class that a 2-bit field names (R65). -/
def classOfNumber (n : Nat) : ClockClass :=
  if n = 0 then .ref else if n = 1 then .agreed else if n = 2 then .drifting else .unset

/-- The number of a record kind (R86). -/
def kindNumber : RecordKind → Nat
  | .input => 0
  | .chatter => 1
  | .settled => 2
  | .point => 3
  | .check => 4
  | .clock => 5
  | .mark => 6
  | .hold => 7
  | .service => 8
  | .dial => 9
  | .restart => 10
  | .unused n => 11 + n.val

/-- The record kind that a 4-bit number names (R86). -/
def kindOfNumber (n : Nat) : RecordKind :=
  match n with
  | 0 => .input
  | 1 => .chatter
  | 2 => .settled
  | 3 => .point
  | 4 => .check
  | 5 => .clock
  | 6 => .mark
  | 7 => .hold
  | 8 => .service
  | 9 => .dial
  | 10 => .restart
  | k => .unused (Fin.ofNat 5 (k - 11))

/-- The code of an agreement state in beacons and on page 1 (R24). -/
def agreementCode : AgreementState → Nat
  | .reference => 0
  | .locked => 1
  | .acquiring => 2
  | .holdover => 3
  | .unset => 4

/-- The result codes (R65). -/
def resultCode : Result → Nat
  | .ok => 0
  | .accepted => 1
  | .busy => 2
  | .inUse => 3
  | .isEmpty => 4
  | .badValue => 5
  | .past => 6
  | .noTime => 7
  | .noSuch => 8
  | .notYours => 9
  | .watchFull => 10
  | .holdFull => 11
  | .notReady => 12
  | .unknownQuery => 13

/-- The codes of POINT records (R65). -/
def pointCode : PointOutcome → Nat
  | .moved => 0
  | .movedSlow => 1
  | .movedLate => 2
  | .returned => 3
  | .overtime => 4
  | .failedToStart => 5
  | .lostDetection => 6
  | .detectionRestored => 7
  | .bothDetected => 8
  | .unknown => 9
  | .known => 10

/-- The codes of CHECK records (R65). -/
def checkCode : CheckOutcome → Nat
  | .onTime => 0
  | .early => 1
  | .late => 2
  | .missed => 3

/-- The codes of RESTART records and of the restart cause (R65, R195). -/
def causeCode : RestartCause → Nat
  | .powerOn => 0
  | .pin => 1
  | .query => 2

/-- The number of a level in records and answers (R65): 0 INACTIVE, 1 ACTIVE. -/
def levelNumber : Level → Nat
  | .inactive => 0
  | .active => 1

/-- The number of a point's state (R135). -/
def pointStateNumber : PointState → Nat
  | .detected .normal => 0
  | .detected .reverse => 1
  | .called _ _ _ => 2
  | .moving _ _ _ _ => 3
  | .overtime _ _ _ => 4
  | .lost => 5
  | .both => 6
  | .unknown => 7

/-! ### The record (R65) -/

/-- A record's 18 bytes. -/
def recordBytes (r : Record) : List Byte :=
  beBytes 4 r.number.toNat ++ beBytes 7 r.date.time ++
    [byteOf (r.date.cls.number * 64 + kindNumber r.kind * 4 + r.uncertain.toNat * 2 + r.valuePresent.toNat),
      r.subject, r.code] ++ beBytes 4 r.value.toNat

/-- The record that 18 bytes spell. -/
def parseRecord (b : List Byte) : Record :=
  let f := (byteAt b 11).toNat
  { number := BitVec.ofNat 32 (numberAt b 0 4)
    date := { time := numberAt b 4 7, cls := classOfNumber (f / 64) }
    kind := kindOfNumber (f / 4 % 16)
    uncertain := f / 2 % 2 == 1
    valuePresent := f % 2 == 1
    subject := byteAt b 12
    code := byteAt b 13
    value := BitVec.ofNat 32 (numberAt b 14 4) }

/-- The `n` records that follow each other in a payload. -/
def parseRecords : Nat → List Byte → List Record
  | 0, _ => []
  | n + 1, b => parseRecord (b.take 18) :: parseRecords n (b.drop 18)

/-! ### Payloads (R65) -/

/-- The kind code of a payload (R48). -/
def payloadKind : Payload → Nat
  | .beacon _ => 0
  | .mark _ => 1
  | .news _ => 2
  | .answer _ _ _ _ => 3
  | .history _ _ _ _ _ => 5

/-- The payload bytes of a beacon's four items. -/
def beaconBytes (i : BeaconItems) : List Byte :=
  byteOf (i.cls.number * 64 + agreementCode i.state * 8 + i.alarm.toNat * 4) :: beBytes 7 i.transmit

/-- The payload bytes of a mark. -/
def markBytes (m : MarkInfo) : List Byte :=
  [byteOf m.originator.val, m.number, m.reason, m.subject] ++ beBytes 7 m.time ++ beBytes 2 m.pre ++ beBytes 2 m.post

/-- The payload bytes of a NEWS telegram. -/
def newsBytes (n : NewsTelegram) : List Byte :=
  beBytes 2 n.sequence.toNat ++ [byteOf n.gap, byteOf n.records.length] ++ n.records.flatMap recordBytes

/-- The payload bytes of a telegram the part sends. A beacon whose items are not read yet stands as 8 bytes of 0. -/
def payloadBytes : Payload → List Byte
  | .beacon none => List.replicate 8 0
  | .beacon (some i) => beaconBytes i
  | .mark m => markBytes m
  | .news n => newsBytes n
  | .answer tag kind result data => [tag, kind, byteOf (resultCode result)] ++ data
  | .history tag ends overrun skipped records =>
    [tag, byteOf (ends.toNat * 128 + overrun.toNat * 64)] ++ beBytes 2 skipped ++ [byteOf records.length] ++
      records.flatMap recordBytes

/-- How long a telegram lasts, in bit-times (R48). -/
def telegramBits (t : OutTelegram) : Nat :=
  47 + 8 * (payloadBytes t.payload).length

/-- The telegram as it stands on the line. -/
def onTheLine (own : Station) (t : OutTelegram) : Telegram :=
  { dest := t.dest, source := BitVec.ofNat 5 own.val, kind := BitVec.ofNat 4 (payloadKind t.payload)
    payload := payloadBytes t.payload }

/-! ### The frame (R48, R49) -/

/-- The bits of a field, most significant first (R46). -/
def fieldBits : Nat → Nat → List Bool
  | 0, _ => []
  | n + 1, v => (v / 2 ^ n % 2 == 1) :: fieldBits n v

/-- The number that bits spell, most significant first. -/
def bitsNumber (bits : List Bool) : Nat :=
  bits.foldl (fun acc b => acc * 2 + b.toNat) 0

/-- The start sequence (R48). -/
def startSequence : List Bool := [false, true, false, true, true, false, false, true]

/-- One bit taken into the check register (R49). -/
def checkStep (register : BitVec 16) (bit : Bool) : BitVec 16 :=
  let shifted := register <<< 1
  if (register.msb ^^ bit) then shifted ^^^ 0x1021#16 else shifted

/-- The check over bits, from a register of all ones (R49). -/
def checkOf (bits : List Bool) : BitVec 16 :=
  bits.foldl checkStep 0xFFFF#16

/-- The bits the check covers: destination, source, kind, length and payload (R49). -/
def coveredBits (t : Telegram) : List Bool :=
  fieldBits 6 t.dest.toNat ++ fieldBits 5 t.source.toNat ++ fieldBits 4 t.kind.toNat ++ fieldBits 8 t.payload.length ++
    t.payload.flatMap (fun b => fieldBits 8 b.toNat)

/-- The last bit of a telegram, which is the last bit of its check (R47, R48). -/
def lastBit (t : Telegram) : Bool := (checkOf (coveredBits t)).getLsbD 0

/-- All the bits of a telegram, in the order they are sent (R48). -/
def telegramBitList (t : Telegram) : List Bool :=
  startSequence ++ coveredBits t ++ fieldBits 16 (checkOf (coveredBits t)).toNat

/-- A bit as its bit-time shows it (R46). -/
def bitTime (b : Bool) : BitTime := if b then .one else .zero

/-- A telegram as bit-times, with the quiet bit-time that follows its check (R50). -/
def telegramOnLine (t : Telegram) : List BitTime :=
  (telegramBitList t).map bitTime ++ [.quiet]

/-- The two half-bits of a bit: whether each is driven (R46). -/
def halves (b : Bool) : Bool × Bool := (!b, b)

/-- The next `n` bit-times read as bits: none where one of them is a framing fault or is missing (R50). -/
def readBits : Nat → List BitTime → Option (List Bool × List BitTime)
  | 0, rest => some ([], rest)
  | n + 1, .zero :: rest => (readBits n rest).map fun p => (false :: p.1, p.2)
  | n + 1, .one :: rest => (readBits n rest).map fun p => (true :: p.1, p.2)
  | _ + 1, _ => none

/-- The next `n` bytes. -/
def readBytes : Nat → List BitTime → Option (List Byte × List BitTime)
  | 0, rest => some ([], rest)
  | n + 1, seen => do
    let (bits, rest) ← readBits 8 seen
    let (bytes, rest) ← readBytes n rest
    pure (byteOf (bitsNumber bits) :: bytes, rest)

/-- The telegram received from the bit-times after the first driven half-bit after free, or none where it is dropped by its start
sequence, a framing fault, its length, its check, or by running on (R50). -/
def frame (seen : List BitTime) : Option Telegram := do
  let (start, rest) ← readBits 8 seen
  if start = startSequence then
    let (dest, rest) ← readBits 6 rest
    let (source, rest) ← readBits 5 rest
    let (kind, rest) ← readBits 4 rest
    let (length, rest) ← readBits 8 rest
    if bitsNumber length ≤ 160 then
      let (payload, rest) ← readBytes (bitsNumber length) rest
      let (check, rest) ← readBits 16 rest
      let t : Telegram :=
        { dest := BitVec.ofNat 6 (bitsNumber dest), source := BitVec.ofNat 5 (bitsNumber source)
          kind := BitVec.ofNat 4 (bitsNumber kind), payload := payload }
      if bitsNumber check = (checkOf (coveredBits t)).toNat ∧ rest.head? = some .quiet then some t else none
    else none
  else none

/-! ### The telegrams that the commands of reception stand for (R65) -/

/-- A telegram of another station. -/
def telegramFrom (source : Station) (dest : BitVec 6) (kind : BitVec 4) (payload : List Byte) : Telegram :=
  { dest := dest, source := BitVec.ofNat 5 source.val, kind := kind, payload := payload }

/-- The BEACON that was received, its bits shown as 0 in R65 taken as sent so (DEDUCED, unsafe, log entry 28). -/
def beaconTelegram (source : Station) (cls : ClockClass) (stateCode : BitVec 3) (alarm : Bool) (transmit : BitVec 56) : Telegram :=
  telegramFrom source 63 0
    (byteOf (cls.number * 64 + stateCode.toNat * 8 + alarm.toNat * 4) :: beBytes 7 transmit.toNat)

/-- The MARK that was received. -/
def markTelegram (source : Station) (number reason subject : Byte) (time : BitVec 56) (pre post : BitVec 16) : Telegram :=
  telegramFrom source 63 1
    ([byteOf source.val, number, reason, subject] ++ beBytes 7 time.toNat ++ beBytes 2 pre.toNat ++ beBytes 2 post.toNat)

/-- The NEWS that was received. -/
def newsTelegram (source : Station) (sequence : BitVec 16) (gap : Byte) (records : List Record) : Telegram :=
  telegramFrom source 63 2
    (beBytes 2 sequence.toNat ++ [gap, byteOf records.length] ++ records.flatMap recordBytes)

/-- The QUERY that was received, addressed to this station. -/
def queryTelegram (own source : Station) (tag kind : Byte) (args : List Byte) : Telegram :=
  telegramFrom source (BitVec.ofNat 6 own.val) 4 (tag :: kind :: args)

/-- The released half-bits at the end of what was seen (R46). -/
def releasedHalves (seen : List BitTime) : Nat :=
  match seen.reverse.dropWhile (· == .quiet) with
  | .zero :: more => 2 * (seen.length - (more.length + 1)) + 1
  | l => 2 * (seen.length - l.length)

/-! ### What becomes of a received telegram (R51, R52, R61) -/

/-- The number of a received telegram's source. -/
def sourceOf (t : Telegram) : Station := Fin.ofNat 32 t.source.toNat

/-- A payload whose layout is consistent with its kind (R51). -/
def consistent (t : Telegram) : Bool :=
  match t.kind.toNat with
  | 0 => t.payload.length == 8
  | 1 => t.payload.length == 15 && (byteAt t.payload 0).toNat == t.source.toNat
  | 2 =>
    let n := (byteAt t.payload 3).toNat
    decide (1 ≤ n) && decide (n ≤ 8) && t.payload.length == 4 + 18 * n
  | 4 => decide (2 ≤ t.payload.length)
  | _ => true

/-- The command that a query of a kind is (R65, R192). -/
def queryCommand (kind : Byte) (source : Station) (tag : Byte) (args : List Byte) : Instr :=
  match kind.toNat with
  | 1 => .postCheck source tag args
  | 2 => .withdrawCheck source tag args
  | 3 => .readCheck source tag args
  | 4 => .history source tag args
  | 5 => .historyCancel source tag args
  | 6 => .raiseMark source tag args
  | 7 => .releaseHold source tag args
  | 8 => .setDial source tag args
  | 9 => .readDial source tag args
  | 10 => .serviceReset source tag args
  | 11 => .readPoint source tag args
  | 12 => .readStatus source tag args
  | 13 => .clearAlarms source tag args
  | 14 => .restart source tag args
  | _ => .unknownQuery source tag kind args

/-- What a received telegram is to the station (R51, R52, R61). -/
inductive Reception where
  | dropped
  | duplicate
  | ignored
  | taken (command : Instr)
  deriving DecidableEq, Repr

/-- Sort a received telegram by consistency, source, destination and kind (R51, R52). -/
def classify (own : Station) (t : Telegram) : Reception :=
  if consistent t = false then .dropped
  else if sourceOf t = own then .duplicate
  else
    let b := t.payload
    match t.kind.toNat with
    | 0 =>
      if t.dest.toNat = 63 then
        .taken (.beacon (sourceOf t) (classOfNumber ((byteAt b 0).toNat / 64))
          (BitVec.ofNat 3 ((byteAt b 0).toNat / 8)) ((byteAt b 0).toNat / 4 % 2 == 1) (BitVec.ofNat 56 (numberAt b 1 7)))
      else .ignored
    | 1 =>
      if t.dest.toNat = 63 then
        .taken (.mark (sourceOf t) (byteAt b 1) (byteAt b 2) (byteAt b 3) (BitVec.ofNat 56 (numberAt b 4 7))
          (BitVec.ofNat 16 (numberAt b 11 2)) (BitVec.ofNat 16 (numberAt b 13 2)))
      else .ignored
    | 2 =>
      if t.dest.toNat = 63 then
        .taken (.news (sourceOf t) (BitVec.ofNat 16 (numberAt b 0 2)) (byteAt b 2)
          (parseRecords (byteAt b 3).toNat (b.drop 4)))
      else .ignored
    | 4 =>
      if t.dest.toNat = own.val then .taken (queryCommand (byteAt b 1) (sourceOf t) (byteAt b 0) (b.drop 2))
      else .ignored
    | _ => .ignored

/-- What bit-times seen on the line are to the station: dropped by framing (R50), or as the received telegram is sorted. -/
def receptionOf (own : Station) (seen : List BitTime) : Reception :=
  match frame seen with
  | none => .dropped
  | some t => classify own t

end Sys2Proof.Machine
end

