-- ==== Sys2Proof/Machine/Operands.lean ====
section
/-! DEFINITION. Operand forms: the arguments of each query as the layout table of R65 gives them, and the configuration record as
R200 lays it out, with the clamping of R22, R31, R46, R66, R105, R120, R143, R179 and R201. -/

namespace Sys2Proof.Machine

/-! ### Query arguments (R65) -/

/-- The station a byte names, if it is 0–31. -/
def stationOfByte (b : Byte) : Option Station :=
  if h : b.toNat < 32 then some ⟨b.toNat, h⟩ else none

/-- The field input a byte names, if it is 0–63. -/
def inputOfByte (b : Byte) : Option InputNo :=
  if h : b.toNat < 64 then some ⟨b.toNat, h⟩ else none

/-- The point a byte names, if it is 0–31. -/
def pointOfByte (b : Byte) : Option PointNo :=
  if h : b.toNat < 32 then some ⟨b.toNat, h⟩ else none

/-- The impulse line a byte names, if it is 0–3. -/
def dialOfByte (b : Byte) : Option DialNo :=
  if h : b.toNat < 4 then some ⟨b.toNat, h⟩ else none

/-- The check entry a byte names: every byte names one (R146). -/
def entryOfByte (b : Byte) : EntryNo := b.toFin

/-- The edge a byte codes (R65). -/
def edgeOfByte (b : Byte) : Option Edge :=
  match b.toNat with
  | 0 => some .toActive
  | 1 => some .toInactive
  | 2 => some .any
  | _ => none

/-- The side a byte codes: 0 normal, 1 reverse (R65). -/
def sideOfByte (b : Byte) : Option Side :=
  match b.toNat with
  | 0 => some .normal
  | 1 => some .reverse
  | _ => none

/-- The subject of a POST CHECK where its fields are in range (R65, R147). The station is not looked at for a POINT subject. -/
def subjectOfArgs (args : List Byte) : Option Subject :=
  match (byteAt args 1).toNat with
  | 0 => do
    let station ← stationOfByte (byteAt args 2)
    let input ← inputOfByte (byteAt args 3)
    let edge ← edgeOfByte (byteAt args 4)
    pure (.input station input edge)
  | 1 => do
    let point ← pointOfByte (byteAt args 3)
    let target ← sideOfByte (byteAt args 4)
    pure (.point point target)
  | _ => none

/-- The fields of a POST CHECK as R146 takes them. -/
structure Posting where
  entry : EntryNo
  subject : Option Subject
  dueSecond : Nat
  due : LineTime
  openAt : LineTime
  closeAt : LineTime
  watchBefore : Nat
  watchAfter : Nat
  earlyTolerance : Nat
  lateTolerance : Nat
  period : Nat
  repeats : Nat
  markOnMiss : Bool
  deriving DecidableEq, Repr

/-- A period: 0 stays 0, others are clamped to 60–86,400 s (R146). -/
def periodOf (p : Nat) : Nat := if p = 0 then 0 else clamp 60 86400 p

/-- Read the 23 argument bytes of a POST CHECK (R65, R146). -/
def postingOf (args : List Byte) : Posting :=
  let before := clamp 0 14400 (numberAt args 10 2)
  let after := clamp 0 14400 (numberAt args 12 2)
  let dueSecond := numberAt args 7 3
  let due := numberAt args 5 2 * Config.day + dueSecond * 1000000
  { entry := entryOfByte (byteAt args 0)
    subject := subjectOfArgs args
    dueSecond := dueSecond
    due := due
    openAt := due - before * 1000000
    closeAt := due + after * 1000000
    watchBefore := before
    watchAfter := after
    earlyTolerance := clamp 0 before (numberAt args 14 2)
    lateTolerance := clamp 0 after (numberAt args 16 2)
    period := periodOf (numberAt args 18 3)
    repeats := (byteAt args 21).toNat
    markOnMiss := (byteAt args 22).toNat % 2 == 1 }

/-! ### The configuration record (R200) -/

/-- A point definition with its defined flag (R120). -/
structure ConfigRecord where
  settings : Settings
  initialTrim : Int
  enables : BitVec 11
  inputs : Vector InputDef 64
  points : Vector (Option PointDef) 32
  dials : Vector DialDef 4
  deriving DecidableEq, Repr

/-- The bit rate in force: the nearest of 250, 500 and 1,000, halfway taken as the larger (R46). -/
def bitRateOf (v : Nat) : Nat :=
  if v < 375 then 250 else if v < 750 then 500 else 1000

/-- T in force: the nearest of 4, 8 and 16, halfway taken as the larger (R22). -/
def intervalOf (v : Nat) : Nat :=
  if v < 6 then 4 else if v < 12 then 8 else 16

/-- The global settings of a record, clamped and rounded (R22, R25, R31, R46, R66, R105, R143, R201). -/
def recordSettings (b : List Byte) : Settings :=
  { bitRate := bitRateOf (numberAt b 5 2)
    interval := intervalOf (byteAt b 7).toNat
    delay := clamp 0 255 (byteAt b 8).toNat
    thresholdMs := clamp 1 100 (byteAt b 9).toNat
    watermark := clamp 1 8 (byteAt b 12).toNat
    settle := clamp 1 10 (byteAt b 13).toNat
    chatterLimit := clamp 2 50 (byteAt b 14).toNat
    referenceFitted := (byteAt b 15).toNat != 0 }

/-- One input definition (R66, R200). -/
def recordInput (b : List Byte) (i : InputNo) : InputDef :=
  let at0 := 18 + 4 * i.val
  { enabled := (byteAt b at0).toNat != 0
    inverted := (byteAt b (at0 + 1)).toNat != 0
    pulse := (byteAt b (at0 + 2)).toNat == 1
    filterMs := clamp 1 250 (byteAt b (at0 + 3)).toNat }

/-- One reference of a point definition, clamped (R201). -/
def recordRef (b : List Byte) (at0 : Nat) : Station × InputNo :=
  (Fin.ofNat 32 (clamp 0 31 (byteAt b at0).toNat), Fin.ofNat 64 (clamp 0 63 (byteAt b (at0 + 1)).toNat))

/-- One point definition, none where its defined flag is clear (R120, R200). -/
def recordPoint (b : List Byte) (p : PointNo) : Option PointDef :=
  let at0 := 274 + 17 * p.val
  if (byteAt b at0).toNat = 0 then none
  else
    some
      { refs :=
          { normalCall := recordRef b (at0 + 1), reverseCall := recordRef b (at0 + 3)
            normalDetection := recordRef b (at0 + 5), reverseDetection := recordRef b (at0 + 7) }
        startMs := clamp 100 5000 (numberAt b (at0 + 9) 2)
        strokeMs := clamp 1000 20000 (numberAt b (at0 + 11) 2)
        interval := numberAt b (at0 + 13) 3
        markOnFailure := (byteAt b (at0 + 16)).toNat != 0 }

/-- One impulse line definition (R179, R200): the spacing is raised to the pulse width plus 500 ms. -/
def recordDial (b : List Byte) (l : DialNo) : DialDef :=
  let at0 := 818 + 5 * l.val
  let width := clamp 100 2000 (numberAt b (at0 + 2) 2)
  { enabled := (byteAt b at0).toNat != 0
    step := if (byteAt b (at0 + 1)).toNat < 45 then 30 else 60
    widthMs := width
    spacingMs := max (clamp 1 10 (byteAt b (at0 + 4)).toNat * 1000) (width + 500) }

/-- A usable record's fields. -/
def parseConfig (b : List Byte) : ConfigRecord :=
  { settings := recordSettings b
    initialTrim := clampInt (-20000) 20000 (beToInt ((b.drop 10).take 2))
    enables := BitVec.ofNat 11 (numberAt b 16 2)
    inputs := Vector.ofFn (recordInput b)
    points := Vector.ofFn (recordPoint b)
    dials := Vector.ofFn (recordDial b) }

/-- The settings of a channel when no record gives them: its enable is off (R201), the rest is free within the ranges of R66 (DESIGN
CHOICE, safe, log entry 25). -/
def unconfiguredInput (i : InputNo) : InputDef :=
  { enabled := false, inverted := Config.unconfiguredInverted i, pulse := Config.unconfiguredPulse i
    filterMs := clamp 1 250 (Config.unconfiguredFilter i) }

/-- The settings of an impulse line when no record gives them: it is disabled (R201), the rest is free within the ranges of R179 (DESIGN
CHOICE, safe, log entry 25). -/
def unconfiguredDial (l : DialNo) : DialDef :=
  let width := clamp 100 2000 (Config.unconfiguredWidth l)
  { enabled := false, step := if Config.unconfiguredLongStep l then 60 else 30, widthMs := width
    spacingMs := max (clamp 1 10 (Config.unconfiguredSpacing l) * 1000) (width + 500) }

/-- What the blocks take from an unusable record, or from none (R201). -/
def unconfiguredRecord : ConfigRecord :=
  { settings := Settings.unconfigured
    initialTrim := 0
    enables := BitVec.allOnes 11
    inputs := Vector.ofFn unconfiguredInput
    points := Vector.replicate 32 none
    dials := Vector.ofFn unconfiguredDial }

/-- The check field of a record (R200). -/
def recordCheck (b : List Byte) : BitVec 16 := BitVec.ofNat 16 (numberAt b 3 2)

/-- The sum, modulo 65,536, of every byte other than bytes 3 and 4 (R200). -/
def recordSum (b : List Byte) : Nat :=
  (((b.take 3) ++ (b.drop 5)).foldl (fun acc x => acc + x.toNat) 0) % 65536

/-- Whether a header already makes the record unusable (R200). -/
def headerUnusable (b : List Byte) : Bool :=
  (byteAt b 0).toNat != 1 || numberAt b 1 2 != Config.recordLength

/-- How a read ended (R199, R200): not at all while bytes are still to be read, with a record unusable and why, or with a usable
one. -/
inductive ReadOutcome where
  | unfinished
  | unusable (why : Unusable)
  | usable (record : ConfigRecord)
  deriving DecidableEq, Repr

/-- Judge the bytes read in an attempt: the header first, then the whole record and its check (R199, R200). -/
def judgeRecord (b : List Byte) : ReadOutcome :=
  if b.length < 5 then .unfinished
  else if headerUnusable b then .unusable .versionOrLength
  else if b.length < Config.recordLength then .unfinished
  else if recordSum (b.take Config.recordLength) = (recordCheck b).toNat then .usable (parseConfig b)
  else .unusable .check

end Sys2Proof.Machine
end

