-- ==== Sys2Proof/Machine/Flags.lean ====
section
/-! DEFINITION. The alarm summary (R195–R198): the eleven sources, their live conditions as the blocks' rules give them, the
latched bits, and the standing alarm. -/

namespace Sys2Proof.Machine

/-- The eleven alarm sources, in the order of CLEAR ALARMS (R65, R197). -/
inductive AlarmSource where
  | clock | reference | peerOutlier | line | input | point | check | dial | hold | newsGap | config
  deriving DecidableEq, Repr

/-- The bit of a source in the masks of R195 and R197. -/
def AlarmSource.bit : AlarmSource → Nat
  | .clock => 0
  | .reference => 1
  | .peerOutlier => 2
  | .line => 3
  | .input => 4
  | .point => 5
  | .check => 6
  | .dial => 7
  | .hold => 8
  | .newsGap => 9
  | .config => 10

/-- The sources in bit order. -/
def AlarmSource.all : List AlarmSource :=
  [.clock, .reference, .peerOutlier, .line, .input, .point, .check, .dial, .hold, .newsGap, .config]

/-- A mask with one source's bit. -/
def AlarmSource.mask (a : AlarmSource) : BitVec 11 := BitVec.ofNat 11 (2 ^ a.bit)

/-- A point's alarm stands: LOST, BOTH, OVERTIME, or start-failed set (R138). -/
def Point.alarm (p : Point) : Bool :=
  (match p.state with
    | .lost => true
    | .both => true
    | .overtime _ _ _ => true
    | _ => false) || p.startFailed

/-- Records in the hold store (R172). -/
def storeCount (holds : List Hold) : Nat := (holds.map fun h => h.records.length).sum

/-- The live condition of each source (R12, R30, R43, R63, R81, R117, R138, R157, R173, R186, R198). -/
def live (s : State) : AlarmSource → Bool
  | .clock => s.agree.state == .unset || s.agree.state == .holdover || decide (1 ≤ s.agree.disputeCount)
  | .reference => s.port.state == .searching
  | .peerOutlier => s.agree.peers.toList.any Peer.outlier
  | .line => s.line.trouble
  | .input => s.input.channels.toList.any fun c => c.mode == .chattering
  | .point => s.points.toList.any fun p => p.defn.isSome && p.alarm
  | .check => false
  | .dial => s.dials.toList.any fun d => decide (3 ≤ d.failed)
  | .hold => decide (s.marks.holds.length = Config.holdTableSize) ||
      decide (Config.storeWarning ≤ storeCount s.marks.holds)
  | .newsGap => false
  | .config => s.config.state == .unconfigured ||
      (s.config.state == .configured && s.points.toList.any Point.noRoom)

/-- The live mask (R195). -/
def liveMask (s : State) : BitVec 11 :=
  AlarmSource.all.foldl (fun m a => if live s a then m ||| a.mask else m) 0

/-- Set a source's latched bit, at its event or as its live condition becomes true (R196). -/
def latch (a : AlarmSource) (s : State) : State :=
  s.setQuery { s.query with latched := s.query.latched ||| a.mask }

/-- Latch a source where a condition holds. -/
def latchIf (a : AlarmSource) (c : Bool) (s : State) : State := if c then latch a s else s

/-- Latch every source whose live condition holds (R196). -/
def relatch (s : State) : State :=
  s.setQuery { s.query with latched := s.query.latched ||| liveMask s }

/-- The standing alarm: at least one source both latched and enabled (R196). -/
def standingAlarm (s : State) : Bool := s.query.latched &&& s.query.enables != 0

/-- The alarm contact ALC, true while closed (R196). -/
def alarmContact (s : State) : Bool := standingAlarm s

/-- The end of every command: each source whose live condition holds is latched (R196), and the part goes on. -/
def finish (s : State) : Host.Outcome State Fault Refusal := .next (relatch s)

/-- A command whose event does not take place, because the state does not hold what its rule requires: nothing changes
(DESIGN CHOICE, safe, log entry 2). -/
def noEvent (s : State) : Host.Outcome State Fault Refusal := .next s

end Sys2Proof.Machine
end

