-- ==== Sys2Proof/Machine/Ops.lean ====
section
/-! DEFINITION. The shared operations: dates, free order, table updates, transmit slots and the class 2 arbiter, forming NEWS,
and writing a journal record with all that follows from the write (R87–R89). -/

namespace Sys2Proof.Machine

/-! ### Dates and free order -/

/-- The date a block takes now: line time and class in one reading (R10). -/
def now (s : State) : Date := { time := s.clock.lineTime, cls := s.clock.cls }

/-- This station's number, as read from the straps (R199). -/
def own (s : State) : Station := s.config.station

/-- A date whose class leaves it in doubt: DRIFTING or UNSET (R135, R154). -/
def doubtfulDate (d : Date) : Bool := d.cls == .drifting || d.cls == .unset

/-- A list in an order that the free value `Config.tie` picks (DESIGN CHOICE, safe, log entry 3). -/
def arrange {α : Type} : Nat → Nat → List α → List α
  | 0, _, l => l
  | n + 1, c, l =>
    match l with
    | [] => []
    | [x] => [x]
    | x :: rest =>
      let i := Config.tie c % (x :: rest).length
      (x :: rest).getD i x :: arrange n (c + 1) ((x :: rest).eraseIdx i)

/-- Several things that come together, in a free order, and the state with the counter moved past the values used. -/
def inAnyOrder {α : Type} (l : List α) (s : State) : List α × State :=
  (arrange l.length s.choices l, if l.length ≤ 1 then s else s.setChoices (s.choices + l.length))

/-! ### Tables -/

def setPeer (i : Station) (p : Peer) (s : State) : State :=
  s.setAgree { s.agree with peers := setAt s.agree.peers i p }

def setChannel (i : InputNo) (c : Channel) (s : State) : State :=
  s.setInput { s.input with channels := setAt s.input.channels i c }

def setEntry (e : EntryNo) (c : Option CheckEntry) (s : State) : State :=
  s.setChecks (setAt s.checks e c)

/-- A point's new record; the POINT source latches while its alarm stands (R138). -/
def setPoint (p : PointNo) (x : Point) (s : State) : State :=
  latchIf .point (x.defn.isSome && x.alarm) (s.setPoints (setAt s.points p x))

/-- An impulse line's new state; the DIAL source latches while a failed-pulse count is 3 or more (R186). -/
def setDialState (l : DialNo) (d : Dial) (s : State) : State :=
  latchIf .dial (decide (3 ≤ d.failed)) (s.setDials (setAt s.dials l d))

/-- The hold table; the HOLD source latches while the table or the store is nearly full (R173). -/
def setHolds (hs : List Hold) (s : State) : State :=
  latchIf .hold (decide (hs.length = Config.holdTableSize) || decide (Config.storeWarning ≤ storeCount hs))
    (s.setMarks { s.marks with holds := hs })

/-! ### Line counters and transmit slots (R53, R62) -/

/-- Oscillator periods in one bit-time (R46): 40, 20 or 10. -/
def bitPeriods (s : State) : Nat := 10000 / s.settings.bitRate

/-- Add 1 to a 16-bit counter that saturates (R62). -/
def count16 (n : Nat) : Nat := satAdd 65535 n 1

def setSlot (k : TelegramClass) (x : Slot) (s : State) : State :=
  s.setLine { s.line with slots := setAt s.line.slots k x }

/-- Fill a transmit slot: WAITING with attempt count 0 (R53). -/
def placeTelegram (k : TelegramClass) (t : OutTelegram) (s : State) : State := setSlot k (.waiting t 0) s

/-- The class slots that hold a telegram on the line. -/
def sendingSlot (s : State) : Option (TelegramClass × OutTelegram × Nat × OscTime) :=
  (List.finRange 4).findSome? fun k =>
    match s.line.slots[k] with
    | .sending t n since => some (k, t, n, since)
    | _ => none

/-- Every station (R1). -/
def everyStation : BitVec 6 := 63

/-- A station as a destination. -/
def destOf (st : Station) : BitVec 6 := BitVec.ofNat 6 st.val

/-! ### The class 2 slot and NEWS (R54, R103–R109, R193) -/

/-- The telegram that the oldest answer offers: its next part (R193, R194). -/
def answerTelegram (a : Answer) : OutTelegram :=
  { dest := destOf a.dest, payload := .answer a.tag a.kind a.result (a.parts.headD []) }

/-- Fill the class 2 slot with the news unit's telegram (R108). -/
def placeNews (t : NewsTelegram) (s : State) : State :=
  let s := placeTelegram 2 { dest := everyStation, payload := .news t } s
  (s.setNews { s.news with sender := .placed t }).setLine { s.line with newsFilledLast := true }

/-- Fill the class 2 slot with the oldest answer's telegram (R193). -/
def placeAnswer (a : Answer) (s : State) : State :=
  let s := placeTelegram 2 (answerTelegram a) s
  s.setLine { s.line with newsFilledLast := false }

/-- The class 2 arbiter: an EMPTY slot goes to the one unit that is ready, or to the one that did not fill it last (R54). -/
def arbitrate (s : State) : State :=
  match s.line.slots[(2 : TelegramClass)] with
  | .vacant =>
    match s.news.sender, s.query.answers with
    | .formed t, a :: _ => if s.line.newsFilledLast then placeAnswer a s else placeNews t s
    | .formed t, [] => placeNews t s
    | _, a :: _ => placeAnswer a s
    | _, [] => s
  | _ => s

/-- A flush is pending while the held target is still in the queue (R109). -/
def flushPending (n : NewsUnit) : Bool :=
  match n.flushTarget with
  | none => false
  | some t => n.queue.any fun q => q.1.number == t

/-- The oldest record's batch wait has reached 20 ms (R107). -/
def batchWaited (s : State) : Bool :=
  match s.news.queue with
  | [] => false
  | q :: _ => decide (q.2 + msPeriods 20 ≤ s.clock.osc)

/-- Form a NEWS telegram from the oldest records, up to 8 (R106). -/
def formNews (s : State) : State :=
  let t : NewsTelegram :=
    { sequence := s.news.nextSequence, gap := s.news.gap, records := (s.news.queue.take 8).map Prod.fst }
  s.setNews
    { s.news with
      queue := s.news.queue.drop 8
      gap := 0
      nextSequence := s.news.nextSequence + 1
      sender := .formed t }

/-- Whether the sender forms a telegram: NONE, receiving, and the watermark, the batch wait or a flush (R105). -/
def newsDue (s : State) : Bool :=
  s.news.sender == .idle && s.line.running && !s.news.queue.isEmpty &&
    (decide (s.settings.watermark ≤ s.news.queue.length) || batchWaited s || flushPending s.news)

/-- The sender looks at its conditions, forms where one holds, and offers the telegram to the arbiter (R105, R108). -/
def newsLook (s : State) : State :=
  if newsDue s then arbitrate (formNews s) else s

/-- Hand a record to the announcement queue: it joins, or is refused by a full queue, the NEWS_GAP event (R103, R104, R117). -/
def announce (r : Record) (s : State) : State :=
  if s.news.queue.length < Config.queueSize then
    newsLook (s.setNews { s.news with queue := s.news.queue ++ [(r, s.clock.osc)] })
  else
    latch .newsGap
      (s.setNews
        { s.news with
          gap := satAdd 255 s.news.gap 1
          counters := { s.news.counters with refused := count16 s.news.counters.refused } })

/-! ### Records -/

/-- A record as a block hands it to the journal, which gives the number (R86). -/
def draft (kind : RecordKind) (date : Date) (subject code : Nat) (value : Option Int) (uncertain : Bool) : Record :=
  { number := 0, date := date, kind := kind, uncertain := uncertain, valuePresent := value.isSome
    subject := byteOf subject, code := byteOf code, value := BitVec.ofInt 32 (value.getD 0) }

/-- HOLD records (R174): 0 TRUNCATED, 1 PARTIAL, 2 RELEASED. -/
def holdDraft (code : Nat) (h : Hold) (s : State) : Record :=
  draft .hold (now s) h.mark.originator.val code (some h.mark.number.toNat) false

/-- Whether a record's date lies in a hold's window, both ends included (R167). -/
def Hold.inWindow (h : Hold) (r : Record) : Bool :=
  decide (h.start ≤ r.date.time) && decide (r.date.time ≤ h.stop)

/-- A hold closed for want of room or at a restart (R172, R178). Its close due flag stays as it was (DESIGN CHOICE, unsafe, log entry 39). -/
def Hold.truncate (h : Hold) : Hold :=
  { h with state := .closed, truncated := true, walk := none, deadline := none }

/-- A hold closed at its close deadline, or at the newest record where that has come (R168, R171). Its close due flag stays as it was (DESIGN
CHOICE, unsafe, log entry 39). -/
def Hold.close (h : Hold) : Hold :=
  { h with state := .closed, walk := none, deadline := none }

/-- Hold `i` takes a record where the store has room; otherwise it closes TRUNCATED, and its HOLD TRUNCATED record is still to
be written (R172). -/
def takeInto (i : Nat) (h : Hold) (r : Record) (s : State) : State × List Record :=
  if storeCount s.marks.holds < Config.storeSize then
    (setHolds (s.marks.holds.set i { h with records := h.records ++ [r] }) s, [])
  else
    (setHolds (s.marks.holds.set i h.truncate) s, [holdDraft 0 h s])

/-- Offer a placed record to one hold (R170). -/
def offerTo (r : Record) (acc : State × List Record) (i : Nat) : State × List Record :=
  match acc.1.marks.holds[i]? with
  | some h =>
    if h.state == .filling && h.inWindow r then
      let (s, more) := takeInto i h r acc.1
      (s, acc.2 ++ more)
    else acc
  | none => acc

/-- The history reader's answer to a record about to be replaced (R98). -/
def Read.skip (rd : Read) (n : JournalNo) : Read :=
  if rd.source == .journal && rd.next == n && decide (0 < rd.remaining) then
    { rd with skipped := count16 rd.skipped, next := n + 1, remaining := rd.remaining - 1 }
  else rd

/-- The HISTORY telegram that a read places (R96). -/
def historyTelegram (rd : Read) : OutTelegram :=
  { dest := destOf rd.requester
    payload := .history rd.tag rd.ends (decide (0 < rd.skipped)) rd.skipped rd.collected }

/-- Fill the class 3 slot with the assembled telegram (R96). It carries the skips of its wait in READY with OVERRUN, and skipped starts anew: where
such a skip brought remaining to 0, the telegram assembled after it carries END without OVERRUN, although R98 names both (DEDUCED, unsafe,
log entry 17). -/
def placeHistory (rd : Read) (s : State) : State :=
  placeTelegram 3 (historyTelegram rd) (s.setReader (some { rd with mode := .placed, skipped := 0, collected := [] }))

/-- Assemble a HISTORY telegram: END where nothing remains; placed at once in an EMPTY slot, else READY (R96). END is decided here
(DEDUCED, unsafe, log entry 17). -/
def assemble (rd : Read) (s : State) : State :=
  let rd := { rd with ends := rd.remaining == 0, mode := .ready }
  match s.line.slots[(3 : TelegramClass)] with
  | .vacant => placeHistory rd s
  | _ => s.setReader (some rd)

/-- A read in COLLECTING assembles once it has 8 records or nothing remains (R95). -/
def collectLook (s : State) : State :=
  match s.reader with
  | some rd =>
    if rd.mode == .collecting && (rd.remaining == 0 || decide (8 ≤ rd.collected.length)) then assemble rd s else s
  | none => s

/-- A hold's answer to a record about to be replaced (R169). -/
def Hold.lose (h : Hold) (r : Record) : Hold :=
  if h.state == .copying && h.walk == some r.number then
    { h with walk := some (r.number + 1), isPartial := h.isPartial || h.inWindow r }
  else h

/-- Step 1 of a write (R87): the oldest record of a full ring is reported to the walks and removed. Holds newly PARTIAL have
their HOLD PARTIAL records still to be written. -/
def replaceOldest (s : State) : State × List Record :=
  match s.journal.records with
  | [] => (s, [])
  | oldest :: rest =>
    if s.journal.records.length < Config.journalSize then (s, [])
    else
      let spoiled := s.marks.holds.filter fun h => !h.isPartial && (h.lose oldest).isPartial
      let drafts := spoiled.map fun h => holdDraft 1 h s
      let s := collectLook (s.setReader (s.reader.map fun rd => rd.skip oldest.number))
      let s := setHolds (s.marks.holds.map fun h => h.lose oldest) s
      (s.setJournal { s.journal with records := rest }, drafts)

/-- One write, whole (R87, R89): replace, number and place, announce unless MARK HEARD, offer to holds in FILLING. Answers the
records that the mark unit writes because of it. -/
def writeOne (r : Record) (s : State) : State × List Record :=
  let (s, partials) := replaceOldest s
  let placed := { r with number := s.journal.next }
  let s := s.setJournal { records := s.journal.records ++ [placed], next := s.journal.next + 1 }
  let s := if placed.kind == .mark && placed.code == 1 then s else announce placed s
  let (order, s) := inAnyOrder (List.range s.marks.holds.length) s
  let (s, truncations) := order.foldl (offerTo placed) (s, [])
  (s, partials ++ truncations)

/-- A write and the writes it causes, each after the record that caused it (R88). Each hold is marked PARTIAL once and closes
TRUNCATED once, so 9 nested writes cover every chain of a table of 4 holds (DEDUCED, safe, log entry 32). The HOLD records that a write
causes come before the records that other blocks write because of it, and the whole chain of one before the next of them (DESIGN CHOICE,
unsafe, log entry 34). -/
def writeNested : Nat → Record → State → State
  | 0, r, s => (writeOne r s).1
  | n + 1, r, s =>
    let (s, caused) := writeOne r s
    let (order, s) := inAnyOrder caused s
    order.foldl (fun acc c => writeNested n c acc) s

/-- Hand a record to the journal (R87, R88). -/
def writeRecord (r : Record) (s : State) : State := writeNested 9 r s

/-- The record as the journal numbers it when it is written next. -/
def numbered (r : Record) (s : State) : Record := { r with number := s.journal.next }

/-- The journal number of the oldest record held (R85). -/
def oldestNumber (j : Journal) : JournalNo := j.next - BitVec.ofNat 32 j.records.length

/-- The newest journal number (R85). -/
def newestNumber (j : Journal) : JournalNo := j.next - 1

/-- The record held under a journal number, by its distance from the oldest (R84). -/
def recordAt (j : Journal) (n : JournalNo) : Option Record := j.records[(n - oldestNumber j).toNat]?

/-- The value field of a CLOCK record: C within ±2,147,483,647 (R11). -/
def clockValue (c : Int) : Int := clampInt (-2147483647) 2147483647 c

/-- A record of a kind whose UNCERTAIN flag no rule states: a free value (DESIGN CHOICE, safe, log entry 10). -/
def plainDraft (kind : RecordKind) (date : Date) (subject code : Nat) (value : Option Int) (s : State) : Record :=
  draft kind date subject code value (Config.unstatedUncertain kind s.journal.next)

end Sys2Proof.Machine
end

