-- ==== Sys2Proof/Machine/Holds.lean ====
section
/-! DEFINITION. The mark unit (chapter 09): raising and hearing marks, holds and their walks, the outgoing mark list, and the
commands HOLD_WALK_VISIT and HOLD_CLOSE_DEADLINE. -/

namespace Sys2Proof.Machine

/-- Whether a hold has an identity (R167). -/
def Hold.named (h : Hold) (originator : Station) (number : Byte) : Bool :=
  h.mark.originator == originator && h.mark.number == number

/-- The place in the hold table of the hold with an identity. -/
def holdIndex (s : State) (originator : Station) (number : Byte) : Option Nat :=
  s.marks.holds.findIdx? fun h => h.named originator number

/-- MARK records (R174): 0 RAISED, 1 HEARD, 2 NOT_HELD. -/
def markDraft (code : Nat) (m : MarkInfo) (s : State) : Record :=
  draft .mark (now s) m.originator.val code (some m.number.toNat) false

/-- The own mark number's next value: the following number that names no hold raised here (R162). A table of 4 holds passes over
at most 4 numbers. -/
def nextMarkNumber (s : State) : Nat → Byte → Byte
  | 0, n => n
  | k + 1, n => if (holdIndex s (own s) n).isSome then nextMarkNumber s k (n + 1) else n

/-- A new hold, COPYING from the oldest record (R167, R168); where its close deadline is already past, close due is set at once (R171),
also where the store holds 1,024 records and the hold closes TRUNCATED as it is made (DESIGN CHOICE, unsafe, log entry 39). -/
def newHold (m : MarkInfo) (s : State) : Hold :=
  let stop := m.time + m.post * 1000000
  { mark := m
    start := m.time - m.pre * 1000000
    stop := stop
    cls := s.clock.cls
    state := .copying
    truncated := false
    isPartial := false
    walk := some (oldestNumber s.journal)
    deadline := some (stop + 1000000)
    closeDue := decide (stop + 1000000 ≤ s.clock.lineTime)
    inUse := false
    records := [] }

/-- Steps 3 to 5 of R166: the hold is made, the MARK record written, and HOLD TRUNCATED after it where the store was full. -/
def makeHold (code : Nat) (m : MarkInfo) (s : State) : State :=
  let h := newHold m s
  let full := decide (Config.storeSize ≤ storeCount s.marks.holds)
  let s := setHolds (s.marks.holds ++ [if full then h.truncate else h]) s
  let s := writeRecord (markDraft code m s) s
  if full then writeRecord (holdDraft 0 h s) s else s

/-- Apply a mark raised here (R166). One whose identity is held writes MARK RAISED alone (DEDUCED, unsafe, log entry 21). -/
def applyRaised (m : MarkInfo) (s : State) : State :=
  if (holdIndex s m.originator m.number).isSome then writeRecord (markDraft 0 m s) s
  else if s.marks.holds.length < Config.holdTableSize then makeHold 0 m s
  else
    let s := writeRecord (markDraft 0 m s) s
    writeRecord (markDraft 2 m s) s

/-- Act on a heard mark: ignored where its identity is held, NOT_HELD where the table is full, else applied (R165, R166). -/
def applyHeard (m : MarkInfo) (s : State) : State :=
  if (holdIndex s m.originator m.number).isSome then s
  else if s.marks.holds.length < Config.holdTableSize then makeHold 1 m s
  else writeRecord (markDraft 2 m s) s

/-- Place the oldest MARK telegram of the outgoing mark list in an EMPTY class 1 slot (R164). -/
def placeMark (s : State) : State :=
  match s.line.slots[(1 : TelegramClass)], s.marks.outgoing with
  | .vacant, m :: _ => placeTelegram 1 { dest := everyStation, payload := .mark m } s
  | _, _ => s

/-- Pass a MARK telegram to the outgoing mark list; a list of 8 leaves the mark not broadcast (R164). -/
def broadcast (m : MarkInfo) (s : State) : State :=
  if s.marks.outgoing.length < Config.markListSize then
    placeMark (s.setMarks { s.marks with outgoing := s.marks.outgoing ++ [m] })
  else
    s.setMarks { s.marks with notSent := count16 s.marks.notSent }

/-- Raise a mark at this station: its number is taken, it is broadcast, and it is applied (R162, R163). -/
def raiseMark (reason subject : Byte) (time : LineTime) (pre post : Nat) (s : State) : State :=
  let m : MarkInfo :=
    { originator := own s, number := s.marks.own, reason := reason, subject := subject, time := time
      pre := pre, post := post }
  let s := s.setMarks { s.marks with own := nextMarkNumber s 4 (s.marks.own + 1) }
  applyRaised m (broadcast m s)

/-- Reason codes (R65). -/
def reasonPoint : Byte := 0
def reasonCheck : Byte := 1
def reasonManual : Byte := 2

/-! ### The walk and the close deadline -/

/-- After the walk's visit: on to the following record, or out of COPYING at the newest (R168). -/
def Hold.advance (h : Hold) (visited newest : JournalNo) : Hold :=
  if h.state == .copying then
    if visited == newest then
      if h.closeDue then h.close else { h with state := .filling, walk := none }
    else { h with walk := some (visited + 1) }
  else h

/-- One visit of a hold's walk (R168, R172). -/
def visitHold (i : Nat) (h : Hold) (n : JournalNo) (r : Record) (s : State) : State :=
  let newest := newestNumber s.journal
  let (s, caused) := if h.inWindow r then takeInto i h r s else (s, [])
  let s :=
    match s.marks.holds[i]? with
    | some h => setHolds (s.marks.holds.set i (h.advance n newest)) s
    | none => s
  caused.foldl (fun acc c => writeRecord c acc) s

/-- HOLD_WALK_VISIT (R168). -/
def execHoldWalkVisit (originator : Station) (number : Byte) (s : State) : Host.Outcome State Fault Refusal :=
  match holdIndex s originator number with
  | none => noEvent s
  | some i =>
    match s.marks.holds[i]? with
    | none => noEvent s
    | some h =>
      match h.state, h.walk with
      | .copying, some n =>
        match recordAt s.journal n with
        | some r => finish (visitHold i h n r s)
        | none => noEvent s
      | _, _ => noEvent s

/-- A hold's close deadline falls due: FILLING closes, COPYING sets close due and goes on (R171). -/
def Hold.closeFallsDue (h : Hold) : Hold :=
  match h.state with
  | .filling => h.close
  | .copying => { h with closeDue := true }
  | .closed => h

/-- Whether a hold's close deadline has been reached and has not fallen due before (R18, R171). -/
def Hold.deadlineReached (h : Hold) (lineTime : LineTime) : Bool :=
  match h.deadline with
  | some d => !h.closeDue && decide (d ≤ lineTime)
  | none => false

/-- The close deadline of the hold with an identity, where it has been reached (R171). -/
def expireHold (originator : Station) (number : Byte) (s : State) : State :=
  setHolds
    (s.marks.holds.map fun h =>
      if h.named originator number && h.deadlineReached s.clock.lineTime then h.closeFallsDue else h) s

/-- HOLD_CLOSE_DEADLINE (R171). -/
def execHoldCloseDeadline (originator : Station) (number : Byte) (s : State) : Host.Outcome State Fault Refusal :=
  match s.marks.holds.find? fun h => h.named originator number with
  | none => noEvent s
  | some h => if h.deadlineReached s.clock.lineTime then finish (expireHold originator number s) else noEvent s

/-- Release a hold: it leaves the table with its records, and HOLD RELEASED is written (R176). -/
def releaseHold (i : Nat) (h : Hold) (s : State) : State :=
  let s := setHolds (s.marks.holds.eraseIdx i) s
  writeRecord (holdDraft 2 h s) s

end Sys2Proof.Machine
end

