-- ==== Sys2Proof/Machine/Watch.lean ====
section
/-! DEFINITION. The watch table (R113–R116): its entries in rising order of their pairs, references taken and given back, and
the conditions that points and check entries read. -/

namespace Sys2Proof.Machine

/-- Whether a watch entry is that of a pair. -/
def WatchEntry.names (w : WatchEntry) (station : Station) (input : InputNo) : Bool :=
  w.station == station && w.input == input

/-- The entry of a pair. -/
def watchEntry (s : State) (station : Station) (input : InputNo) : Option WatchEntry :=
  s.watch.find? fun w => w.names station input

/-- Put a new entry in its place, by rising pair (R194 sends them so). -/
def insertWatch (w : WatchEntry) : List WatchEntry → List WatchEntry
  | [] => [w]
  | x :: rest =>
    if w.station.val < x.station.val ∨ (w.station = x.station ∧ w.input.val < x.input.val) then w :: x :: rest
    else x :: insertWatch w rest

/-- Take one reference on a pair: an entry counts up, or a new one is made NEVER_HEARD (R113). -/
def addReference (station : Station) (input : InputNo) (watch : List WatchEntry) : List WatchEntry :=
  if watch.any fun w => w.names station input then
    watch.map fun w => if w.names station input then { w with refs := w.refs + 1 } else w
  else insertWatch { station := station, input := input, refs := 1, condition := .neverHeard } watch

/-- Whether a reference on a pair can be taken: it has an entry, or a place is free (R116). -/
def referenceFits (station : Station) (input : InputNo) (watch : List WatchEntry) : Bool :=
  (watch.any fun w => w.names station input) || decide (watch.length < Config.watchSize)

/-- Give a reference back; at 0 the entry is freed (R116). -/
def dropReference (station : Station) (input : InputNo) (watch : List WatchEntry) : List WatchEntry :=
  watch.filterMap fun w =>
    if w.names station input then (if w.refs ≤ 1 then none else some { w with refs := w.refs - 1 }) else some w

/-- Give a condition to the entry of a pair. -/
def setCondition (station : Station) (input : InputNo) (c : Condition) (watch : List WatchEntry) : List WatchEntry :=
  watch.map fun w => if w.names station input then { w with condition := c } else w

/-- The condition of a local input as points and checks see it (R77). -/
def Channel.condition (c : Channel) : Condition :=
  match c.mode with
  | .off => .off
  | .starting => .neverHeard
  | .chattering => .chattering
  | .normal =>
    match c.delivered with
    | some (l, d) => .known l d
    | none => .neverHeard

/-- The condition of an input named by a pair: local through the input unit, remote through the watch table (R77, R113). -/
def conditionOf (s : State) (station : Station) (input : InputNo) : Condition :=
  if station = own s then s.input.channels[input].condition
  else
    match watchEntry s station input with
    | some w => w.condition
    | none => .neverHeard

/-- The level an INPUT record gives (R114, R121). A code outside the table gives a free level (DESIGN CHOICE, safe, log entry 11). -/
def inputLevel (code : Byte) : Level :=
  match code.toNat with
  | 0 => .inactive
  | 1 => .active
  | 2 => .inactive
  | 3 => .active
  | _ => Config.levelOfCode code

/-- The level a SETTLED record gives (R114, R121). A code outside the table gives a free level (DESIGN CHOICE, safe, log entry 11). -/
def settledLevel (code : Byte) : Level :=
  match code.toNat with
  | 0 => .inactive
  | 1 => .active
  | _ => Config.levelOfCode code

/-- The condition a delivered record gives to its input; none for a record of another kind (R114, R121). -/
def conditionFrom (r : Record) : Option Condition :=
  match r.kind with
  | .input => some (.known (inputLevel r.code) r.date)
  | .settled => some (.known (settledLevel r.code) r.date)
  | .chatter => some .chattering
  | _ => none

end Sys2Proof.Machine
end

