-- ==== Sys2Proof/Machine/Checks.lean ====
section
/-! DEFINITION. The check table (chapter 08): deliveries to check entries, openings, decisions and what follows them, and the
commands CHECK_OPENING and CHECK_DECISION. -/

namespace Sys2Proof.Machine

/-- WAITING, OPEN or MATCHED (R143). -/
def CheckEntry.active (c : CheckEntry) : Bool := c.phase != .done

/-- OPEN or MATCHED. -/
def CheckEntry.inWindowPhase (c : CheckEntry) : Bool := c.phase == .opened || c.phase == .matched

/-- The subject is doubtful: NEVER_HEARD, UNCERTAIN, CHATTERING or unknown (R150). -/
def SubjectView.doubtful (v : SubjectView) : Bool := v != .known

/-- A new subject view; it sets the doubt flag where it leaves the subject doubtful in OPEN or MATCHED (R150). -/
def CheckEntry.see (c : CheckEntry) (v : SubjectView) : CheckEntry :=
  { c with view := v, doubt := c.doubt || (c.inWindowPhase && v.doubtful) }

/-- The view that an input's condition gives (R149). -/
def viewOfCondition : Condition → SubjectView
  | .neverHeard => .neverHeard
  | .known _ _ => .known
  | .uncertain => .uncertain
  | .chattering => .chattering
  | .off => .neverHeard

/-- The opening falls due: OPEN, no held match, decision at close + settle (R151). -/
def CheckEntry.opening (c : CheckEntry) : CheckEntry :=
  { c with
    phase := .opened
    held := none
    doubt := c.view.doubtful
    deadline := some (c.closeAt + c.settle * 1000000) }

/-- A match is compared with the held match: the earlier date is kept (R151, R152). -/
def CheckEntry.consider (c : CheckEntry) (d : Date) : CheckEntry :=
  if c.inWindowPhase && decide (c.openAt ≤ d.time) && decide (d.time ≤ c.closeAt) then
    let better :=
      match c.held with
      | none => true
      | some h => decide (d.time < h.time)
    if better then
      { c with phase := .matched, held := some d, deadline := some (d.time + c.settle * 1000000) }
    else c
  else c

/-! ### The decision (R153–R157) -/

/-- The deviation in signed µs (R153). -/
def deviation (c : CheckEntry) (d : Date) : Int := (d.time : Int) - c.due

/-- The outcome, from the unrounded deviation (R153). -/
def CheckEntry.outcome (c : CheckEntry) : CheckOutcome :=
  match c.held with
  | none => .missed
  | some d =>
    if deviation c d < -((c.earlyTolerance : Int) * 1000000) then .early
    else if deviation c d ≤ (c.lateTolerance : Int) * 1000000 then .onTime
    else .late

/-- The reported deviation in tenths of a second (R153). -/
def CheckEntry.tenths (c : CheckEntry) : Int :=
  match c.held with
  | none => 0
  | some d => roundHalfAway (deviation c d) 100000

/-- The UNCERTAIN flag of the decision (R154). -/
def CheckEntry.uncertainAt (c : CheckEntry) (cls : ClockClass) : Bool :=
  c.doubt || (match c.held with
    | some d => doubtfulDate d
    | none => false) || cls == .drifting

/-- The CHECK record of the decision (R155). -/
def checkDraft (e : EntryNo) (c : CheckEntry) (s : State) : Record :=
  match c.held with
  | some d => draft .check d e.val (checkCode c.outcome) (some c.tenths) (c.uncertainAt s.clock.cls)
  | none =>
    draft .check { time := c.closeAt, cls := s.clock.cls } e.val (checkCode c.outcome) none
      (c.uncertainAt s.clock.cls)

/-- The watch reference that an entry holds, given back (R116). -/
def giveBack (c : CheckEntry) (s : State) : State :=
  match c.subject with
  | .input station input _ => if station = own s then s else s.setWatch (dropReference station input s.watch)
  | .point _ _ => s

/-- The entry after its decision: DONE, or WAITING for its next occurrence (R156). The doubt flag stays as it was in DONE (DEDUCED, unsafe,
log entry 37). -/
def CheckEntry.afterDecision (c : CheckEntry) : CheckEntry :=
  if c.period = 0 then { c with phase := .done, deadline := none }
  else if c.repeatsLeft = 1 then { c with phase := .done, deadline := none, repeatsLeft := 0 }
  else
    let p := c.period * 1000000
    { c with
      phase := .waiting
      due := c.due + p
      openAt := c.openAt + p
      closeAt := c.closeAt + p
      held := none
      doubt := false
      repeatsLeft := c.repeatsLeft - 1
      deadline := some (c.openAt + p) }

/-- The decision of one occurrence (R153–R157). -/
def decideEntry (e : EntryNo) (c : CheckEntry) (s : State) : State :=
  let r := checkDraft e c s
  let missed := c.outcome == .missed
  let c1 := { c with last := some { outcome := c.outcome, uncertain := r.uncertain, tenths := c.tenths } }
  let s := setEntry e (some c1) s
  let s := writeRecord r s
  let s := latchIf .check missed s
  let s := if missed && c.markOnMiss then raiseMark reasonCheck (byteOf e.val) c.closeAt 600 60 s else s
  let c2 := c1.afterDecision
  let s := setEntry e (some c2) s
  if c2.phase == .done then giveBack c2 s else s

/-- Whether an entry's deadline has been reached (R18). -/
def CheckEntry.reached (c : CheckEntry) (lineTime : LineTime) : Bool :=
  match c.deadline with
  | some d => decide (d ≤ lineTime)
  | none => false

/-- Take each deadline of one entry that has been reached, the opening before the decision and one occurrence after another (R149,
R152, R156, R158). -/
def runEntry : Nat → EntryNo → State → State
  | 0, _, s => s
  | n + 1, e, s =>
    match s.checks[e] with
    | none => s
    | some c =>
      if c.reached s.clock.lineTime then
        match c.phase with
        | .waiting => runEntry n e (setEntry e (some c.opening) s)
        | .opened => runEntry n e (decideEntry e c s)
        | .matched => runEntry n e (decideEntry e c s)
        | .done => s
      else s

/-- Enough rounds for every occurrence that line time has passed: two for each period after the opening, and two more. -/
def entryRounds (c : CheckEntry) (lineTime : LineTime) : Nat :=
  if c.period = 0 then 2 else 2 * ((lineTime - c.openAt) / (c.period * 1000000)) + 4

/-- Take an entry's reached deadlines. -/
def settleEntry (e : EntryNo) (s : State) : State :=
  match s.checks[e] with
  | none => s
  | some c => runEntry (entryRounds c s.clock.lineTime) e s

/-! ### Deliveries -/

/-- Whether a delivered record matches an INPUT subject's edge (R145). -/
def edgeMatches (edge : Edge) (r : Record) : Bool :=
  r.kind == .input &&
    ((r.code.toNat == 1 && edge != .toInactive) || (r.code.toNat == 0 && edge != .toActive))

/-- Deliver a record of an input to one check entry (R145, R150–R152). -/
def deliverInputToCheck (station : Station) (input : InputNo) (r : Record) (e : EntryNo) (s : State) : State :=
  match s.checks[e], conditionFrom r with
  | some c, some view =>
    match c.subject with
    | .input st i edge =>
      if c.active && st == station && i == input then
        let seen := c.see (viewOfCondition view)
        let matched := if edgeMatches edge r then seen.consider r.date else seen
        let s := setEntry e (some matched) s
        if matched.held != c.held then settleEntry e s else s
      else s
    | .point _ _ => s
  | _, _ => s

/-- Report that an input's watch entry has become UNCERTAIN to one check entry (R114, R150). -/
def reportToCheck (station : Station) (input : InputNo) (e : EntryNo) (s : State) : State :=
  match s.checks[e] with
  | some c =>
    match c.subject with
    | .input st i _ =>
      if c.active && st == station && i == input then setEntry e (some (c.see .uncertain)) s else s
    | .point _ _ => s
  | none => s

/-- Whether a POINT record with the state entered matches a target (R145). -/
def targetMatches (target : Side) (outcome : PointOutcome) (entered : PointState) : Bool :=
  (outcome == .moved || outcome == .movedSlow || outcome == .movedLate) && entered == .detected target

/-- Deliver a POINT record, with the state the point entered, to one check entry (R144, R145, R150–R152). -/
def deliverPointToCheck (p : PointNo) (outcome : PointOutcome) (entered : PointState) (date : Date) (e : EntryNo)
    (s : State) : State :=
  match s.checks[e] with
  | some c =>
    match c.subject with
    | .point q target =>
      if c.active && q == p then
        let seen := c.see (if outcome == .unknown then .unknown else .known)
        let matched := if targetMatches target outcome entered then seen.consider date else seen
        let s := setEntry e (some matched) s
        if matched.held != c.held then settleEntry e s else s
      else s
    | .input _ _ _ => s
  | none => s

/-- The active entries with a POINT subject naming a point. -/
def entriesOfPoint (s : State) (p : PointNo) : List EntryNo :=
  (List.finRange 256).filter fun e =>
    match s.checks[e] with
    | some c =>
      match c.subject with
      | .point q _ => c.active && q == p
      | .input _ _ _ => false
    | none => false

/-- The active entries with an INPUT subject naming a pair. -/
def entriesOfInput (s : State) (station : Station) (input : InputNo) : List EntryNo :=
  (List.finRange 256).filter fun e =>
    match s.checks[e] with
    | some c =>
      match c.subject with
      | .input st i _ => c.active && st == station && i == input
      | .point _ _ => false
    | none => false

/-- Hand a POINT record on to every active entry that names the point (R144). -/
def deliverPoint (p : PointNo) (outcome : PointOutcome) (entered : PointState) (date : Date) (s : State) : State :=
  let (order, s) := inAnyOrder (entriesOfPoint s p) s
  order.foldl (fun acc e => deliverPointToCheck p outcome entered date e acc) s

/-! ### The commands -/

/-- CHECK_OPENING (R151). -/
def execCheckOpening (e : EntryNo) (s : State) : Host.Outcome State Fault Refusal :=
  match s.checks[e] with
  | none => noEvent s
  | some c =>
    if c.phase == .waiting && c.reached s.clock.lineTime then
      finish (settleEntry e (setEntry e (some c.opening) s))
    else noEvent s

/-- CHECK_DECISION (R153). -/
def execCheckDecision (e : EntryNo) (s : State) : Host.Outcome State Fault Refusal :=
  match s.checks[e] with
  | none => noEvent s
  | some c =>
    if c.inWindowPhase && c.reached s.clock.lineTime then finish (settleEntry e (decideEntry e c s))
    else noEvent s

end Sys2Proof.Machine
end

