-- ==== Sys2Proof/Machine/Points.lean ====
section
/-! DEFINITION. The point monitor (chapter 07): what a delivery does to a point, its outcomes, limits, trends and service counter,
and the commands START_DEADLINE and STROKE_DEADLINE. -/

namespace Sys2Proof.Machine

/-! ### Sides and references (R124) -/

/-- The other side. -/
def Side.other : Side → Side
  | .normal => .reverse
  | .reverse => .normal

/-- The call of a side. -/
def Side.call : Side → Ref
  | .normal => .normalCall
  | .reverse => .reverseCall

/-- The detection of a side. -/
def Side.detection : Side → Ref
  | .normal => .normalDetection
  | .reverse => .reverseDetection

/-- The references in their order (R120, R125). -/
def Ref.all : List Ref := [.normalCall, .reverseCall, .normalDetection, .reverseDetection]

/-- Whether a reference is a call. -/
def Ref.isCall : Ref → Bool
  | .normalCall => true
  | .reverseCall => true
  | .normalDetection => false
  | .reverseDetection => false

/-- The value for one reference. -/
def Four.at {α : Type} (f : Four α) : Ref → α
  | .normalCall => f.normalCall
  | .reverseCall => f.reverseCall
  | .normalDetection => f.normalDetection
  | .reverseDetection => f.reverseDetection

/-- One reference's value replaced. -/
def Four.put {α : Type} (f : Four α) (r : Ref) (x : α) : Four α :=
  match r with
  | .normalCall => { f with normalCall := x }
  | .reverseCall => { f with reverseCall := x }
  | .normalDetection => { f with normalDetection := x }
  | .reverseDetection => { f with reverseDetection := x }

/-- The same function of each reference's value. -/
def Four.map {α β : Type} (f : Four α) (g : α → β) : Four β :=
  { normalCall := g f.normalCall, reverseCall := g f.reverseCall
    normalDetection := g f.normalDetection, reverseDetection := g f.reverseDetection }

/-- The references of a definition that name a pair, in reference order. -/
def PointDef.naming (d : PointDef) (station : Station) (input : InputNo) : List Ref :=
  Ref.all.filter fun r => d.refs.at r == (station, input)

/-- A reference is known while its view is KNOWN (R121). -/
def Condition.isKnown : Condition → Bool
  | .known _ _ => true
  | _ => false

/-- The level of a view, if it is KNOWN. -/
def Condition.level : Condition → Option Level
  | .known l _ => some l
  | _ => none

/-- All four references are known (R122, R123). -/
def allKnown (v : Four Condition) : Bool :=
  v.normalCall.isKnown && v.reverseCall.isKnown && v.normalDetection.isKnown && v.reverseDetection.isKnown

/-- Whether a view is KNOWN and ACTIVE. -/
def Condition.isActive (c : Condition) : Bool := c.level == some .active

/-- The state taken from the two detections alone (R123). -/
def stateFromDetections (v : Four Condition) : PointState :=
  match v.normalDetection.isActive, v.reverseDetection.isActive with
  | true, false => .detected .normal
  | false, true => .detected .reverse
  | true, true => .both
  | false, false => .lost

/-! ### Durations (R134) -/

/-- A duration in whole ms: below 0 it is taken as 0, above 2,147,483,647 as that. -/
def durationMs (later earlier : Date) : Nat :=
  min 2147483647 (((later.time : Int) - earlier.time).toNat / 1000)

/-- Whether a difference of dates was below 0, which flags the outcome UNCERTAIN. -/
def outOfOrder (later earlier : Date) : Bool := decide (later.time < earlier.time)

/-! ### Outcomes (R135, R139) -/

/-- The outcomes that raise a mark where the flag is set (R139). -/
def PointOutcome.failure : PointOutcome → Bool
  | .overtime => true
  | .lostDetection => true
  | .bothDetected => true
  | .failedToStart => true
  | _ => false

/-- Write an outcome: the POINT record, its deliveries to check entries with the state entered, and the mark (R135, R139, R144).
The point already holds the state entered. -/
def writeOutcome (p : PointNo) (outcome : PointOutcome) (date : Date) (value : Option Nat) (uncertain : Bool)
    (s : State) : State :=
  let pt := s.points[p]
  let s := setPoint p { pt with lastOutcome := some (outcome, date) } s
  let s := writeRecord (draft .point date p.val (pointCode outcome) (value.map Int.ofNat) uncertain) s
  let s := deliverPoint p outcome pt.state date s
  match pt.defn with
  | some d =>
    if d.markOnFailure && outcome.failure then raiseMark reasonPoint (byteOf p.val) date.time 120 60 s else s
  | none => s

/-- Enter a state (views and the rest as they stand). -/
def enterState (p : PointNo) (x : PointState) (s : State) : State :=
  setPoint p { s.points[p] with state := x } s

/-- The trend of a direction (R136). -/
def Point.trend (pt : Point) : Side → Trend
  | .normal => pt.trendNormal
  | .reverse => pt.trendReverse

/-- A direction's trend replaced. -/
def Point.putTrend (pt : Point) (side : Side) (t : Trend) : Point :=
  match side with
  | .normal => { pt with trendNormal := t }
  | .reverse => { pt with trendReverse := t }

/-- The slow test (R136). -/
def Trend.slow (t : Trend) (stroke : Nat) : Bool :=
  decide (4 ≤ t.count) && (match t.value with
    | some v => decide (v * 5 < stroke * 4)
    | none => false)

/-- The trend after a stroke (R136). -/
def Trend.take (t : Trend) (stroke : Nat) : Trend :=
  match t.value with
  | none => { value := some stroke, count := satAdd 255 t.count 1 }
  | some v =>
    { value := some ((v : Int) + roundHalfAway ((stroke : Int) - v) 8).toNat, count := satAdd 255 t.count 1 }

/-- Count a movement in the service counter; a wrap with an interval sets service-due and writes SERVICE (R137). -/
def countMovement (p : PointNo) (date : Date) (s : State) : State :=
  let pt := s.points[p]
  if pt.service < 16777215 then setPoint p { pt with service := pt.service + 1 } s
  else
    match pt.defn with
    | some d =>
      if d.interval = 0 then setPoint p { pt with service := 0 } s
      else
        let s := setPoint p { pt with service := 0, serviceDue := true } s
        writeRecord (plainDraft .service date p.val 0 (some d.interval) s) s
    | none => setPoint p { pt with service := 0 } s

/-- MOVED or MOVED_SLOW: durations, slow test, outcome, trend, service counter (R129, R134–R137). The outcome is delivered to the check
entries before SERVICE is written (DESIGN CHOICE, unsafe, log entry 34). -/
def movementEnds (p : PointNo) (toward : Side) (call loss found : Date) (s : State) : State :=
  let pt := s.points[p]
  let stroke := durationMs found loss
  let uncertain :=
    doubtfulDate call || doubtfulDate loss || doubtfulDate found || outOfOrder found loss || outOfOrder found call
  let slow := (pt.trend toward).slow stroke
  let s := setPoint p
    { pt with
      state := .detected toward
      lastStroke := some stroke
      lastOperate := some (durationMs found call) } s
  let s := writeOutcome p (if slow then .movedSlow else .moved) found (some stroke) uncertain s
  let pt := s.points[p]
  let s := if uncertain then s else setPoint p (pt.putTrend toward ((pt.trend toward).take stroke)) s
  countMovement p found s

/-- MOVED_LATE: the stroke and the operate time, no slow test, no trend (R131); delivered before SERVICE, as in `movementEnds`. -/
def lateMovementEnds (p : PointNo) (side : Side) (call loss found : Date) (s : State) : State :=
  let pt := s.points[p]
  let stroke := durationMs found loss
  let uncertain :=
    doubtfulDate call || doubtfulDate loss || doubtfulDate found || outOfOrder found loss || outOfOrder found call
  let s := setPoint p
    { pt with
      state := .detected side
      lastStroke := some stroke
      lastOperate := some (durationMs found call) } s
  let s := writeOutcome p .movedLate found (some stroke) uncertain s
  countMovement p found s

/-- RETURNED (R129); delivered before SERVICE, as in `movementEnds`. -/
def movementReturns (p : PointNo) (side : Side) (loss found : Date) (s : State) : State :=
  let s := enterState p (.detected side) s
  let s := writeOutcome p .returned found none (doubtfulDate loss || doubtfulDate found) s
  countMovement p found s

/-! ### Deadlines (R128, R130, R133) -/

/-- The start deadline falls due: FAILED_TO_START, dated at the deadline (R128). -/
def startExpires (p : PointNo) (toward : Side) (call : Date) (deadline : LineTime) (s : State) : State :=
  let date : Date := { time := deadline, cls := s.clock.cls }
  let pt := s.points[p]
  let s := setPoint p { pt with state := .detected toward.other, startFailed := true } s
  writeOutcome p .failedToStart date none (doubtfulDate call || doubtfulDate date) s

/-- The stroke deadline falls due: OVERTIME, dated at the deadline (R130). -/
def strokeExpires (p : PointNo) (toward : Side) (call loss : Date) (deadline : LineTime) (s : State) : State :=
  let date : Date := { time := deadline, cls := s.clock.cls }
  let s := enterState p (.overtime toward call loss) s
  writeOutcome p .overtime date none (doubtfulDate loss || doubtfulDate date) s

/-- The deadline a point holds, with what it holds it for (R133). -/
def PointState.deadline : PointState → Option LineTime
  | .called _ _ d => some d
  | .moving _ _ _ d => some d
  | _ => none

/-- Take a point's deadline where line time has reached it (R18, R133). -/
def expirePoint (p : PointNo) (s : State) : State :=
  match s.points[p].state with
  | .called toward call d => if d ≤ s.clock.lineTime then startExpires p toward call d s else s
  | .moving toward call loss d => if d ≤ s.clock.lineTime then strokeExpires p toward call loss d s else s
  | _ => s

/-- The start limit of a point's definition, in µs (R120). -/
def startLimit (pt : Point) : Nat := (match pt.defn with
  | some d => d.startMs
  | none => 0) * 1000

/-- The stroke limit of a point's definition, in µs (R120). -/
def strokeLimit (pt : Point) : Nat := (match pt.defn with
  | some d => d.strokeMs
  | none => 0) * 1000

/-- CALLED, with the start deadline; one already past falls due at once (R126, R133). -/
def becomeCalled (p : PointNo) (toward : Side) (call : Date) (s : State) : State :=
  expirePoint p (enterState p (.called toward call (call.time + startLimit s.points[p])) s)

/-- MOVING, with the stroke deadline; one already past falls due at once (R126, R127, R133). -/
def becomeMoving (p : PointNo) (toward : Side) (call loss : Date) (s : State) : State :=
  expirePoint p (enterState p (.moving toward call loss (loss.time + strokeLimit s.points[p])) s)

/-- LOST or BOTH with its outcome (R126, R127). -/
def becomeFaulty (p : PointNo) (x : PointState) (outcome : PointOutcome) (date : Date) (s : State) : State :=
  writeOutcome p outcome date none (doubtfulDate date) (enterState p x s)

/-- DETECTION_RESTORED (R132). -/
def becomeRestored (p : PointNo) (side : Side) (date : Date) (s : State) : State :=
  writeOutcome p .detectionRestored date none (doubtfulDate date) (enterState p (.detected side) s)

/-! ### Level changes (R125–R132) -/

/-- In DETECTED (R126). -/
def changeDetected (p : PointNo) (side : Side) (ref : Ref) (level : Level) (date : Date) (s : State) : State :=
  let away := side.other
  if ref = away.call ∧ level = .active then becomeCalled p away date s
  else if ref = side.detection ∧ level = .inactive then
    match s.points[p].views.at away.call with
    | .known .active call => becomeMoving p away call date s
    | _ => becomeFaulty p .lost .lostDetection date s
  else if ref = away.detection ∧ level = .active then becomeFaulty p .both .bothDetected date s
  else s

/-- In CALLED (R127). -/
def changeCalled (p : PointNo) (toward : Side) (call : Date) (ref : Ref) (level : Level) (date : Date)
    (s : State) : State :=
  if ref = toward.call ∧ level = .inactive then enterState p (.detected toward.other) s
  else if ref = toward.other.detection ∧ level = .inactive then becomeMoving p toward call date s
  else if ref = toward.detection ∧ level = .active then becomeFaulty p .both .bothDetected date s
  else s

/-- In MOVING (R129). -/
def changeMoving (p : PointNo) (toward : Side) (call loss : Date) (ref : Ref) (level : Level) (date : Date)
    (s : State) : State :=
  if ref = toward.detection ∧ level = .active then movementEnds p toward call loss date s
  else if ref = toward.other.detection ∧ level = .active then movementReturns p toward.other loss date s
  else s

/-- In OVERTIME (R131). -/
def changeOvertime (p : PointNo) (toward : Side) (call loss : Date) (ref : Ref) (level : Level) (date : Date)
    (s : State) : State :=
  if ref = toward.detection ∧ level = .active then lateMovementEnds p toward call loss date s
  else if ref = toward.other.detection ∧ level = .active then lateMovementEnds p toward.other call loss date s
  else s

/-- In LOST (R132). -/
def changeLost (p : PointNo) (ref : Ref) (level : Level) (date : Date) (s : State) : State :=
  if ref = .normalDetection ∧ level = .active then becomeRestored p .normal date s
  else if ref = .reverseDetection ∧ level = .active then becomeRestored p .reverse date s
  else s

/-- In BOTH (R132). -/
def changeBoth (p : PointNo) (ref : Ref) (level : Level) (date : Date) (s : State) : State :=
  if ref = .normalDetection ∧ level = .inactive then becomeRestored p .reverse date s
  else if ref = .reverseDetection ∧ level = .inactive then becomeRestored p .normal date s
  else s

/-- One level change, the view already set: a change of a call clears start-failed (R138), then the state's rule acts. -/
def changeLevel (p : PointNo) (ref : Ref) (level : Level) (date : Date) (s : State) : State :=
  let s := if ref.isCall then setPoint p { s.points[p] with startFailed := false } s else s
  match s.points[p].state with
  | .detected side => changeDetected p side ref level date s
  | .called toward call _ => changeCalled p toward call ref level date s
  | .moving toward call loss _ => changeMoving p toward call loss ref level date s
  | .overtime toward call loss => changeOvertime p toward call loss ref level date s
  | .lost => changeLost p ref level date s
  | .both => changeBoth p ref level date s
  | .unknown => s

/-- Set one reference's view. -/
def setView (p : PointNo) (ref : Ref) (c : Condition) (s : State) : State :=
  let pt := s.points[p]
  setPoint p { pt with views := pt.views.put ref c } s

/-- A known reference takes a new KNOWN view; the other level is a level change (R121, R125). -/
def takeKnown (p : PointNo) (level : Level) (date : Date) (s : State) (ref : Ref) : State :=
  let before := (s.points[p].views.at ref).level
  let s := setView p ref (.known level date) s
  if before = some level then s else changeLevel p ref level date s

/-- UNKNOWN: the movement, the deadline and start-failed are dropped, and UNKNOWN is written (R122). -/
def becomeUnknown (p : PointNo) (date : Date) (s : State) : State :=
  let s := setPoint p { s.points[p] with state := .unknown, startFailed := false } s
  writeOutcome p .unknown date none (doubtfulDate date) s

/-- KNOWN: the state comes from the detections, and KNOWN is written with its number (R123). -/
def becomeKnown (p : PointNo) (date : Date) (s : State) : State :=
  let x := stateFromDetections s.points[p].views
  let s := enterState p x s
  writeOutcome p .known date (some (pointStateNumber x)) (doubtfulDate date) s

/-- Views that stop being known (R121, R122). -/
def loseSight (p : PointNo) (refs : List Ref) (c : Condition) (date : Date) (s : State) : State :=
  let s := refs.foldl (fun acc r => setView p r c acc) s
  if s.points[p].state = .unknown ∨ refs = [] then s else becomeUnknown p date s

/-- Deliver a record of an input to one point (R121–R132). -/
def deliverToPoint (station : Station) (input : InputNo) (r : Record) (p : PointNo) (s : State) : State :=
  match s.points[p].defn, conditionFrom r with
  | some d, some c =>
    let refs := d.naming station input
    match c with
    | .known level date =>
      if s.points[p].state = .unknown then
        let s := refs.foldl (fun acc ref => setView p ref (.known level date) acc) s
        if allKnown s.points[p].views then becomeKnown p date s else s
      else refs.foldl (takeKnown p level date) s
    | c => loseSight p refs c r.date s
  | _, _ => s

/-- Report that an input's watch entry has become UNCERTAIN to one point (R114, R122). -/
def reportToPoint (station : Station) (input : InputNo) (p : PointNo) (s : State) : State :=
  match s.points[p].defn with
  | some d => loseSight p (d.naming station input) .uncertain (now s) s
  | none => s

/-- The points whose definition names a pair. -/
def pointsOfInput (s : State) (station : Station) (input : InputNo) : List PointNo :=
  (List.finRange 32).filter fun p =>
    match s.points[p].defn with
    | some d => !(d.naming station input).isEmpty
    | none => false

/-- One receiver of a record or a report: a point or a check entry. -/
inductive Receiver where
  | point (p : PointNo)
  | entry (e : EntryNo)
  deriving DecidableEq, Repr

/-- The points and check entries that name a pair (R76, R114). -/
def receivers (s : State) (station : Station) (input : InputNo) : List Receiver :=
  (pointsOfInput s station input).map .point ++ (entriesOfInput s station input).map .entry

/-- Deliver a record of an input to the points and check entries that name it (R76, R114). -/
def deliverInput (station : Station) (input : InputNo) (r : Record) (s : State) : State :=
  let (order, s) := inAnyOrder (receivers s station input) s
  order.foldl
    (fun acc x =>
      match x with
      | .point p => deliverToPoint station input r p acc
      | .entry e => deliverInputToCheck station input r e acc) s

/-- Report an UNCERTAIN watch entry to the points and check entries that name it (R114). -/
def reportInput (station : Station) (input : InputNo) (s : State) : State :=
  let (order, s) := inAnyOrder (receivers s station input) s
  order.foldl
    (fun acc x =>
      match x with
      | .point p => reportToPoint station input p acc
      | .entry e => reportToCheck station input e acc) s

/-! ### The commands -/

/-- START_DEADLINE (R128). -/
def execStartDeadline (p : PointNo) (s : State) : Host.Outcome State Fault Refusal :=
  match s.points[p].state with
  | .called toward call d => if d ≤ s.clock.lineTime then finish (startExpires p toward call d s) else noEvent s
  | _ => noEvent s

/-- STROKE_DEADLINE (R130). -/
def execStrokeDeadline (p : PointNo) (s : State) : Host.Outcome State Fault Refusal :=
  match s.points[p].state with
  | .moving toward call loss d =>
    if d ≤ s.clock.lineTime then finish (strokeExpires p toward call loss d s) else noEvent s
  | _ => noEvent s

end Sys2Proof.Machine
end

