-- ==== Sys2Proof/Machine/Inputs.lean ====
section
/-! DEFINITION. The input unit (chapter 04): samples, runs and start runs, chatter, and the commands SAMPLE, ACCEPTANCE,
START_RUN_ACCEPTANCE and CHATTER_SECOND_END. -/

namespace Sys2Proof.Machine

/-! ### The sample (R67–R69, R71, R74) -/

/-- The level of a contact reading under a channel's polarity (R67). -/
def levelOf (d : InputDef) (closed : Bool) : Level := if closed != d.inverted then .active else .inactive

/-- The sample periods a run must last: 10 × F (R70, R75). -/
def filterPeriods (d : InputDef) : Nat := 10 * d.filterMs

/-- A run that has lasted the filter time. -/
def matured (d : InputDef) (r : Run) : Bool := decide (filterPeriods d ≤ r.age)

/-- A run goes on for one sample period more; one that has lasted the filter time waits for its acceptance (DEDUCED, safe, log entry 9). -/
def continueRun (d : InputDef) (r : Run) : Run := if matured d r then r else { r with age := r.age + 1 }

/-- One channel at a sample (R67, R69, R71, R74). -/
def sampleChannel (closed : Bool) (date : Date) (c : Channel) : Channel :=
  let level := levelOf c.defn closed
  match c.mode with
  | .off => c
  | .starting =>
    match c.run with
    | none => { c with reading := some level, run := some { level := level, first := date, age := 0 } }
    | some r =>
      if r.level = level ∨ matured c.defn r then
        { c with reading := some level, run := some (continueRun c.defn r) }
      else { c with reading := some level, run := some { level := level, first := date, age := 0 } }
  | _ =>
    match c.run with
    | none =>
      if c.accepted = some level then { c with reading := some level }
      else { c with reading := some level, run := some { level := level, first := date, age := 0 } }
    | some r =>
      if r.level = level ∨ matured c.defn r then
        { c with reading := some level, run := some (continueRun c.defn r) }
      else { c with reading := some level, run := none }

/-- Current sensed during a pulse (R184). -/
def senseDial (current : Bool) (d : Dial) : Dial :=
  if d.state == .pulsing then { d with sensed := d.sensed || current } else d

/-- A sample: all inputs under one date (R68), RPPS for a pulse (R14), RSTN for a restart edge (R202), the sense inputs (R184). The level
of RPPS is kept whatever the port's state, so one sampled in NOT_FITTED counts as the level before the first pulse (DEDUCED, unsafe, log
entry 36). -/
def takeSample (contacts : BitVec 64) (reference restart : Bool) (sense : BitVec 4) (s : State) : State :=
  let date := now s
  let pulse := s.port.state != .notFitted && s.pins.sampled && !s.pins.reference && reference
  let edge := s.pins.sampled && !s.pins.restart && restart
  let input :=
    { s.input with
      channels := Vector.ofFn fun i => sampleChannel (contacts.getLsbD i.val) date s.input.channels[i]
      nextSample := s.input.nextSample + Config.samplePeriod
      sampledAt := some s.clock.osc
      sampleDate := date
      secondFrom := if s.input.secondAwaited then some s.clock.osc else s.input.secondFrom
      secondAwaited := false }
  let pins :=
    { s.pins with
      contacts := contacts, reference := reference, restart := restart, sense := sense, sampled := true
      restartEdge := s.pins.restartEdge || edge }
  let dials := Vector.ofFn fun l => senseDial (sense.getLsbD l.val) s.dials[l]
  (((s.setInput input).setPins pins).setPort { s.port with pulseSeen := s.port.pulseSeen || pulse }).setDials dials

/-- SAMPLE (R68): it takes place when the sample clock gives a sample. -/
def execSample (contacts : BitVec 64) (reference restart : Bool) (sense : BitVec 4) (s : State) :
    Host.Outcome State Fault Refusal :=
  if s.input.nextSample ≤ s.clock.osc then finish (takeSample contacts reference restart sense s) else noEvent s

/-! ### Records (R72, R73, R76) -/

/-- The date of the latest sample. -/
def sampleDate (s : State) : Date := s.input.sampleDate

/-- Write a channel's record, then deliver it with its journal number (R76). -/
def writeInput (i : InputNo) (r : Record) (s : State) : State :=
  let placed := numbered r s
  deliverInput (own s) i placed (writeRecord r s)

/-- An INPUT, CHATTER or SETTLED record (R73). -/
def inputDraft (kind : RecordKind) (i : InputNo) (date : Date) (code : Nat) (value : Option Int) : Record :=
  draft kind date i.val code value false

/-! ### Acceptance (R70, R72, R78–R80) -/

/-- An acceptance in NORMAL: counted below L and written where its kind calls for it, or CHATTERING entered (R72, R78, R79). -/
def acceptNormal (i : InputNo) (c : Channel) (r : Run) (s : State) : State :=
  let c := { c with accepted := some r.level, run := none, lastChange := some r.first, changed := true }
  if c.chatterCount < s.settings.chatterLimit then
    let c := { c with chatterCount := c.chatterCount + 1 }
    if c.defn.pulse && r.level == .inactive then setChannel i c s
    else
      writeInput i (inputDraft .input i r.first (levelNumber r.level) none)
        (setChannel i { c with delivered := some (r.level, r.first) } s)
  else
    let c := { c with mode := .chattering, chatterCount := 0, quietCount := 0 }
    let s := latch .input (setChannel i c s)
    writeInput i (inputDraft .chatter i r.first 0 (some (levelNumber r.level))) s

/-- An acceptance in CHATTERING: the quiet count returns to 0 and nothing is written (R72, R80). -/
def acceptChattering (i : InputNo) (c : Channel) (r : Run) (s : State) : State :=
  setChannel i
    { c with accepted := some r.level, run := none, lastChange := some r.first, changed := true, quietCount := 0 } s

/-- A channel whose run or start run has lasted the filter time and waits for its acceptance. -/
def Channel.awaits (c : Channel) : Bool :=
  c.mode != .off && (match c.run with
    | some r => matured c.defn r
    | none => false)

/-- The initial acceptance: NORMAL, and an initial INPUT record (R75). -/
def acceptStart (i : InputNo) (c : Channel) (r : Run) (s : State) : State :=
  let c :=
    { c with
      mode := .normal, accepted := some r.level, run := none, chatterCount := 0, quietCount := 0, changed := false
      delivered := some (r.level, r.first) }
  writeInput i (inputDraft .input i r.first (levelNumber r.level + 2) none) (setChannel i c s)

/-- The acceptance of a channel's run or start run, as its mode gives it (R70, R75, R80). -/
def acceptRun (i : InputNo) (r : Run) (s : State) : State :=
  let c := s.input.channels[i]
  match c.mode with
  | .off => s
  | .starting => acceptStart i c r s
  | .normal => acceptNormal i c r s
  | .chattering => acceptChattering i c r s

/-- A channel that settles at the end of the chatter second under way: the tenth in a row without a change (R80). -/
def Channel.settles (c : Channel) : Bool :=
  c.mode == .chattering && !c.changed && decide (9 ≤ c.quietCount) && c.accepted.isSome

/-- Whether the sample at which the chatter second ends has been taken (R78, R80). -/
def secondEnded (s : State) : Bool :=
  match s.input.secondFrom, s.input.sampledAt with
  | some t, some at0 => decide (t + secondPeriods 1 ≤ at0)
  | _, _ => false

/-- A channel of a lower number has its record of this sample still to write: it waits for its acceptance, or settles at a chatter second's
end that has come. At one sample the records go in rising order of input number (R76). -/
def lowerFirst (i : InputNo) (s : State) : Bool :=
  (List.finRange 64).any fun j =>
    decide (j < i) && (s.input.channels[j].awaits || (secondEnded s && s.input.channels[j].settles))

/-- ACCEPTANCE (R70). -/
def execAcceptance (i : InputNo) (s : State) : Host.Outcome State Fault Refusal :=
  let c := s.input.channels[i]
  match c.run with
  | none => noEvent s
  | some r =>
    if (c.mode = .normal ∨ c.mode = .chattering) ∧ c.awaits ∧ lowerFirst i s = false then finish (acceptRun i r s) else noEvent s

/-- START_RUN_ACCEPTANCE (R75). -/
def execStartRunAcceptance (i : InputNo) (s : State) : Host.Outcome State Fault Refusal :=
  let c := s.input.channels[i]
  match c.run with
  | none => noEvent s
  | some r => if c.mode = .starting ∧ c.awaits ∧ lowerFirst i s = false then finish (acceptRun i r s) else noEvent s

/-! ### Chatter seconds (R78, R80) -/

/-- One channel at the end of a chatter second (R78, R80). -/
def endSecond (s : State) (i : InputNo) : State :=
  let c := s.input.channels[i]
  match c.mode with
  | .normal => setChannel i { c with chatterCount := 0, changed := false } s
  | .chattering =>
    if c.changed then setChannel i { c with changed := false } s
    else if c.quietCount < 9 then setChannel i { c with quietCount := c.quietCount + 1 } s
    else
      match c.accepted with
      | none => s
      | some level =>
        let date := sampleDate s
        let c :=
          { c with mode := .normal, chatterCount := 0, quietCount := 0, changed := false
                   delivered := some (level, date) }
        writeInput i (inputDraft .settled i date (levelNumber level) none) (setChannel i c s)
  | _ => s

/-- The acceptance that a channel waits for. -/
def acceptAwaited (s : State) (i : InputNo) : State :=
  let c := s.input.channels[i]
  match c.run with
  | some r => if c.awaits then acceptRun i r s else s
  | none => s

/-- One channel's turn at the end of a chatter second. Where a channel settles, each one that waits for its acceptance takes it in its turn,
so that the records of the sample go in rising order (R76), and in either order with its own end of the second (R78, R80), which the free
value `Config.tie` picks (DESIGN CHOICE, log entry 9). -/
def secondTurn (settling : Bool) (s : State) (i : InputNo) : State :=
  if settling && s.input.channels[i].awaits then
    if Config.tie s.choices % 2 = 0 then endSecond (acceptAwaited (s.setChoices (s.choices + 1)) i) i
    else acceptAwaited (endSecond (s.setChoices (s.choices + 1)) i) i
  else endSecond s i

/-- CHATTER_SECOND_END (R78): each channel in rising order (R76), and the next second begins. -/
def execChatterSecondEnd (s : State) : Host.Outcome State Fault Refusal :=
  if secondEnded s then
    let settling := (List.finRange 64).any fun j => s.input.channels[j].settles
    let s := s.setInput { s.input with secondFrom := s.input.secondFrom.map (· + secondPeriods 1) }
    finish ((List.finRange 64).foldl (secondTurn settling) s)
  else noEvent s

end Sys2Proof.Machine
end

