-- ==== Sys2Proof/Machine/Dials.lean ====
section
/-! DEFINITION. The dial drivers (chapter 10): targets, evaluation, pulses and their results, and the commands TARGET_CHANGE,
PULSE_END, SPACING_WAIT_END, TEST_WAIT_END and TEST_PULSE_END. -/

namespace Sys2Proof.Machine

/-- N, the positions of a dial's face (R179). -/
def faceSize (d : DialDef) : Nat := if d.step = 60 then 720 else 1440

/-- H, the size of the hold zone (R179). -/
def holdZone (d : DialDef) : Nat := if d.step = 60 then 60 else 120

/-- The step in µs. -/
def stepMicros (d : DialDef) : Nat := d.step * 1000000

/-- The target of a line at a line time: the time of day modulo twelve hours in whole steps (R181). -/
def targetAt (d : DialDef) (t : LineTime) : Nat := (t % Config.halfDay) / stepMicros d

/-- The next line time that is a whole multiple of the step (R181). -/
def nextChange (d : DialDef) (t : LineTime) : LineTime := (t / stepMicros d + 1) * stepMicros d

/-- How far the dial is behind: b (R182). -/
def behind (d : DialDef) (target position : Nat) : Nat := (target + faceSize d - position) % faceSize d

/-- What drives IDA and IDB: none while released, else whether the pulse is NEGATIVE (R184). -/
def Dial.output (d : Dial) : Option Bool := if d.state == .pulsing then some d.negative else none

/-- A line's target and its target change deadline, for a line with a position while the class is not UNSET (R181). -/
def Dial.retarget (d : Dial) (t : Date) : Dial :=
  if d.position.isSome && t.cls != .unset then
    { d with target := some (targetAt d.defn t.time), deadline := some (nextChange d.defn t.time) }
  else { d with target := none, deadline := none }

/-- A pulse starts (R184). -/
def Dial.startPulse (d : Dial) (osc : OscTime) (test : Bool) : Dial :=
  { d with state := .pulsing, test := test, sensed := false, last := some (osc, false), wait := none }

/-- Whether the dial may pulse at once (R182). -/
def Dial.mayPulse (d : Dial) (b : Nat) (osc : OscTime) : Bool :=
  match d.last with
  | none => true
  | some (start, succeeded) =>
    (b == 1 && succeeded) || decide (start + msPeriods d.defn.spacingMs ≤ osc)

/-- When a spacing wait runs out: one catch-up spacing after the last pulse's start (R182). -/
def Dial.spacingEnd (d : Dial) : Option OscTime := d.last.map fun p => p.1 + msPeriods d.defn.spacingMs

/-- The evaluation of a line with a position, for a line that it may move (R182). -/
def Dial.evaluate (d : Dial) (osc : OscTime) : Dial :=
  match d.position with
  | none => { d with state := .unset, wait := none }
  | some p =>
    match d.target with
    | none => { d with state := .noTime, wait := none }
    | some t =>
      let b := behind d.defn t p
      if b = 0 then { d with state := .idle, wait := none }
      else if faceSize d.defn - b ≤ holdZone d.defn then { d with state := .holding, wait := none }
      else if d.mayPulse b osc then d.startPulse osc false
      else { d with state := .catchingUp, wait := d.spacingEnd }

/-- An evaluation that does nothing to a line in UNSET, PULSING or FAULT (R182). -/
def Dial.reevaluate (d : Dial) (osc : OscTime) : Dial :=
  if d.state == .unset || d.state == .pulsing || d.state == .fault then d else d.evaluate osc

/-- A target change: recomputed, the next deadline set, and the line evaluated (R181, R183). -/
def Dial.targetFallsDue (d : Dial) (t : Date) (osc : OscTime) : Dial := (d.retarget t).reevaluate osc

/-- A DIAL record (R188). -/
def dialDraft (code : Nat) (l : DialNo) (value : Nat) (s : State) : Record :=
  draft .dial (now s) l.val code (some value) false

/-- Whether a target change deadline has been reached (R18). -/
def Dial.targetReached (d : Dial) (t : LineTime) : Bool :=
  match d.deadline with
  | some x => decide (x ≤ t)
  | none => false

/-- Take a line's target change where it has been reached (R181, R187). -/
def expireDial (l : DialNo) (s : State) : State :=
  let d := s.dials[l]
  if d.targetReached s.clock.lineTime then setDialState l (d.targetFallsDue (now s) s.clock.osc) s else s

/-- TARGET_CHANGE (R181). -/
def execTargetChange (l : DialNo) (s : State) : Host.Outcome State Fault Refusal :=
  if s.dials[l].targetReached s.clock.lineTime then finish (expireDial l s) else noEvent s

/-! ### The ends of pulses (R185, R186) -/

/-- The dial after a pulse in which current was sensed (R185, R186). -/
def Dial.succeed (d : Dial) : Dial :=
  { d with
    position := d.position.map fun p => (p + 1) % faceSize d.defn
    negative := !d.negative
    failed := 0
    last := d.last.map fun x => (x.1, true) }

/-- The dial after a pulse in which none was (R185, R186). -/
def Dial.fail (d : Dial) : Dial :=
  { d with failed := satAdd 255 d.failed 1, last := d.last.map fun x => (x.1, false) }

/-- When a test wait runs out: 60 s from the start of the last pulse (R186). -/
def Dial.testEnd (d : Dial) : Option OscTime := d.last.map fun x => x.1 + secondPeriods 60

/-- Whether the width of the pulse under way has run (R184). -/
def Dial.pulseOver (d : Dial) (osc : OscTime) : Bool :=
  d.state == .pulsing && (match d.last with
    | some x => decide (x.1 + msPeriods d.defn.widthMs ≤ osc)
    | none => false)

/-- Enter FAULT: DIAL FAULT is written and the test wait starts (R186). -/
def enterFault (l : DialNo) (d : Dial) (s : State) : State :=
  let s := latch .dial (setDialState l { d with state := .fault, test := false, wait := d.testEnd } s)
  writeRecord (dialDraft 1 l (d.position.getD 0) s) s

/-- The end of a pulse made outside FAULT (R185). -/
def endPulse (l : DialNo) (s : State) : State :=
  let d := s.dials[l]
  if d.sensed then setDialState l (d.succeed.evaluate s.clock.osc) s
  else if 3 ≤ d.fail.failed then enterFault l d.fail s
  else setDialState l (d.fail.evaluate s.clock.osc) s

/-- PULSE_END (R185). -/
def execPulseEnd (l : DialNo) (s : State) : Host.Outcome State Fault Refusal :=
  if s.dials[l].pulseOver s.clock.osc && !s.dials[l].test then finish (endPulse l s) else noEvent s

/-- The end of a test pulse (R186): DIAL RECOVERED and an evaluation, or FAULT again with a new test wait. -/
def endTestPulse (l : DialNo) (s : State) : State :=
  let d := s.dials[l]
  if d.sensed then
    let d := { d.succeed with test := false }
    let s := setDialState l d s
    let s := writeRecord (dialDraft 2 l (d.position.getD 0) s) s
    setDialState l (d.evaluate s.clock.osc) s
  else setDialState l { d.fail with state := .fault, test := false, wait := d.testEnd } s

/-- TEST_PULSE_END (R186). -/
def execTestPulseEnd (l : DialNo) (s : State) : Host.Outcome State Fault Refusal :=
  if s.dials[l].pulseOver s.clock.osc && s.dials[l].test then finish (endTestPulse l s) else noEvent s

/-! ### Waits (R182, R186) -/

/-- Whether a line's wait has run out. -/
def Dial.waitOver (d : Dial) (osc : OscTime) : Bool :=
  match d.wait with
  | some x => decide (x ≤ osc)
  | none => false

/-- SPACING_WAIT_END (R182). -/
def execSpacingWaitEnd (l : DialNo) (s : State) : Host.Outcome State Fault Refusal :=
  let d := s.dials[l]
  if d.state == .catchingUp && d.waitOver s.clock.osc then finish (setDialState l (d.evaluate s.clock.osc) s)
  else noEvent s

/-- Whether a test pulse is needed: the dial is neither at its target nor within the hold zone ahead of it (R186). -/
def Dial.needsTest (d : Dial) : Bool :=
  match d.position, d.target with
  | some p, some t =>
    let b := behind d.defn t p
    b != 0 && decide (holdZone d.defn < faceSize d.defn - b)
  | _, _ => false

/-- The test wait runs out: a test pulse, or another 60 s (R186). -/
def Dial.testWaitFallsDue (d : Dial) (osc : OscTime) : Dial :=
  if d.needsTest then d.startPulse osc true else { d with wait := some (osc + secondPeriods 60) }

/-- TEST_WAIT_END (R186). -/
def execTestWaitEnd (l : DialNo) (s : State) : Host.Outcome State Fault Refusal :=
  let d := s.dials[l]
  if d.state == .fault && d.waitOver s.clock.osc then finish (setDialState l (d.testWaitFallsDue s.clock.osc) s)
  else noEvent s

end Sys2Proof.Machine
end

