-- ==== Sys2Proof/Machine/ClockUnit.lean ====
section
/-! DEFINITION. The clock unit (chapter 01): how line time advances, corrections, deadlines passed by a jump, class changes, the
beacon phase, the reference port, and the commands REFERENCE_CHARACTER, REFERENCE_MESSAGE, REFERENCE_PULSE,
REFERENCE_LOSS_TIMEOUT, FAST_SLEW_END and BEACON_PHASE. -/

namespace Sys2Proof.Machine

/-! ### Counting (R2, R3) -/

/-- What one oscillator period adds to line time, in units of 10^-9 µs: 0.1 × r µs, with r exactly 0.5 in a fast slew (R3). -/
def periodUnits (c : Clock) : Nat :=
  if c.fastSlewEnd.isSome then 50000000 else (100000000 + c.trim + c.slew).toNat

/-- The clock unit one oscillator period later (R2, R3). At the end of the count the fraction goes on (DEDUCED, unsafe, log entry 20). -/
def Clock.count (c : Clock) : Clock :=
  let f := c.fraction + periodUnits c
  { c with
    osc := c.osc + 1
    lineTime := min Config.maxLineTime (c.lineTime + f / Config.fractionUnits)
    fraction := f % Config.fractionUnits }

/-! ### The beacon phase (R23) -/

/-- The first beacon phase of a station at or after a line time (R23). -/
def firstPhase (st : Station) (t : LineTime) : LineTime :=
  let p := t / 1000000 * 1000000 + st.val * 31250
  if t ≤ p then p else p + 1000000

/-- The phase falls due: a beacon is placed in the class 0 slot unless one is SENDING, and the phase is set one second later. -/
def phaseFallsDue (s : State) : State :=
  let s := s.setAgree { s.agree with phase := s.agree.phase.map (· + 1000000) }
  match s.line.slots[(0 : TelegramClass)] with
  | .sending _ _ _ => s
  | _ => placeTelegram 0 { dest := everyStation, payload := .beacon none } s

/-- Set the phase afresh; one that equals line time falls due at once (R23). -/
def setPhase (s : State) : State :=
  let p := firstPhase (own s) s.clock.lineTime
  let s := s.setAgree { s.agree with phase := some p }
  if p = s.clock.lineTime then phaseFallsDue s else s

/-- BEACON_PHASE (R23). -/
def execBeaconPhase (s : State) : Host.Outcome State Fault Refusal :=
  match s.agree.phase with
  | some p => if p ≤ s.clock.lineTime then finish (phaseFallsDue s) else noEvent s
  | none => noEvent s

/-! ### States, classes and CLOCK records (R9, R11, R35) -/

/-- The class of an agreement state (R9). -/
def classOf : AgreementState → ClockClass
  | .reference => .ref
  | .locked => .agreed
  | .acquiring => .drifting
  | .holdover => .drifting
  | .unset => .unset

/-- A CLOCK record, dated now (R11). Codes: 0 STEP, 1 FAST_SLEW, 2 CLASS_CHANGE. -/
def writeClock (code : Nat) (value : Int) (s : State) : State :=
  writeRecord (plainDraft .clock (now s) 0 code (some value) s) s

/-- CLOCK_CHANGE of class: the new class is taken and CLASS_CHANGE written where it differs (R9, R11). -/
def takeClass (cls : ClockClass) (s : State) : State :=
  if s.clock.cls = cls then s
  else
    let s := s.setClock { s.clock with cls := cls }
    writeClock 2 cls.number s

/-- Enter an agreement state: the counts return to 0 and the class follows (R9, R35). CLOCK latches while its condition holds. -/
def enterAgreement (x : AgreementState) (s : State) : State :=
  let s := s.setAgree { s.agree with state := x, lockCount := 0, disputeCount := 0, emptyCount := 0 }
  let s := takeClass (classOf x) s
  latchIf .clock (live s .clock) s

/-! ### Deadlines that a jump of line time passes (R18) -/

/-- The owners of deadlines on line time, the beacon phase apart. -/
inductive DeadlineOwner where
  | point (p : PointNo)
  | entry (e : EntryNo)
  | hold (originator : Station) (number : Byte)
  | dial (l : DialNo)
  deriving DecidableEq, Repr

/-- The deadlines at or before line time as it stands. -/
def reachedDeadlines (s : State) : List DeadlineOwner :=
  let t := s.clock.lineTime
  ((List.finRange 32).filter fun p =>
      match s.points[p].state.deadline with
      | some d => decide (d ≤ t)
      | none => false).map .point ++
    ((List.finRange 256).filter fun e =>
      match s.checks[e] with
      | some c => c.reached t
      | none => false).map .entry ++
    (s.marks.holds.filter fun h => h.deadlineReached t).map (fun h => .hold h.mark.originator h.mark.number) ++
    ((List.finRange 4).filter fun l => s.dials[l].targetReached t).map .dial

/-- One owner handles its deadline as expired (R18). -/
def expireOwner (s : State) : DeadlineOwner → State
  | .point p => expirePoint p s
  | .entry e => settleEntry e s
  | .hold o n => expireHold o n s
  | .dial l => expireDial l s

/-- Every deadline that line time has passed or reached is expired, in a free order (R6, R8, R18). -/
def expireReached (s : State) : State :=
  let (order, s) := inAnyOrder (reachedDeadlines s) s
  order.foldl expireOwner s

/-- A beacon phase passed by a step is set afresh (R23). One that line time had reached already, its BEACON_PHASE not yet taken at this
moment, counts as passed too, and no beacon is placed for it (DEDUCED, unsafe, log entry 35). -/
def passPhase (s : State) : State :=
  match s.agree.phase with
  | some p => if p ≤ s.clock.lineTime then setPhase s else s
  | none => s

/-! ### Corrections (R4–R8) -/

/-- A normal correction: the slew, and the trim change, each clamped (R4, R5). -/
def normalCorrection (c slew trimChange : Int) (s : State) : State :=
  s.setClock
    { s.clock with
      slew := clampInt (-50000) 50000 slew
      trim := clampInt (-20000) 20000 (s.clock.trim + trimChange)
      lastC := some c }

/-- Line time jumps forward by C and CLOCK STEP is written; the CLOCK event (R6, R11, R43). Deadlines are expired by `afterJump`. -/
def stepForward (c : Int) (s : State) : State :=
  let s := s.setClock { s.clock with lineTime := addLineTime s.clock.lineTime c, lastC := some c }
  latch .clock (writeClock 0 (clockValue c) s)

/-- A fast slew of 2 × |C| µs of oscillator time starts, and CLOCK FAST_SLEW is written; the CLOCK event (R7, R11, R43). -/
def startFastSlew (c : Int) (s : State) : State :=
  let s := s.setClock
    { s.clock with
      slew := 0
      fastSlewEnd := some (s.clock.osc + 2 * c.natAbs * Config.periodsPerMicrosecond)
      lastC := some c }
  latch .clock (writeClock 1 (clockValue c) s)

/-- What follows a forward jump, once its records are written: expired deadlines, then the phase (R6, R18, R23; DEDUCED, unsafe, log
entry 13). -/
def afterJump (s : State) : State := passPhase (expireReached s)

/-- Lines with a position take their target as the class leaves UNSET, and are evaluated (R181, R182). -/
def startDial (s : State) (l : DialNo) : State :=
  setDialState l (s.dials[l].targetFallsDue (now s) s.clock.osc) s

/-- The first setting (R8): line time moves by C, the agreement state is entered with its class, deadlines passed expire, the
phase is set afresh (R23), and the impulse lines take their targets. -/
def firstSetting (c : Int) (x : AgreementState) (s : State) : State :=
  let s := s.setClock { s.clock with lineTime := addLineTime s.clock.lineTime c, lastC := some c }
  let s := enterAgreement x s
  let s := expireReached s
  let s := if s.agree.phase.isSome then setPhase s else s
  (List.finRange 4).foldl startDial s

/-- FAST_SLEW_END (R7). -/
def execFastSlewEnd (s : State) : Host.Outcome State Fault Refusal :=
  match s.clock.fastSlewEnd with
  | some t => if t ≤ s.clock.osc then finish (s.setClock { s.clock with fastSlewEnd := none }) else noEvent s
  | none => noEvent s

/-! ### The reference port (R12–R17) -/

/-- The port's state; REFERENCE latches while it is SEARCHING (R12). -/
def setPortUnit (x : RefPort) (s : State) : State := latchIf .reference (x.state == .searching) (s.setPort x)

/-- The port entering SEARCHING (R12), or NOT_FITTED, holding nothing but the latest offset. -/
def portStarted (fitted : Bool) (p : RefPort) : RefPort :=
  { state := if fitted then .searching else .notFitted
    partialDigits := none, complete := none, pending := none, count := 0, lastLabel := none, lossFrom := none
    offset := p.offset, pulseSeen := false }

/-- The number that decimal digits spell, none where a character is no digit. -/
def digitsNumber (digits : List Byte) : Option Nat :=
  digits.foldl
    (fun acc c => acc.bind fun n => if 48 ≤ c.toNat ∧ c.toNat ≤ 57 then some (n * 10 + (c.toNat - 48)) else none)
    (some 0)

/-- A label within the ranges of R13. -/
def labelFits (day second : Nat) : Bool := decide (day ≤ 65535) && decide (second ≤ 86399)

/-- The label that ten characters carry, where the message is not dropped (R13). -/
def labelOf (digits : List Byte) : Option Label :=
  match digitsNumber (digits.take 5), digitsNumber (digits.drop 5) with
  | some day, some second => if labelFits day second then some { day := day, second := second } else none
  | _, _ => none

/-- One character of the reference message (R13): T starts a message, a digit extends it, a carriage return after ten digits
completes it, anything else or a framing error drops it. -/
def RefPort.receive (p : RefPort) (c : Byte) (framingError : Bool) : RefPort :=
  if framingError then { p with partialDigits := none }
  else if c.toNat = 84 then { p with partialDigits := some [] }
  else
    match p.partialDigits with
    | none => p
    | some digits =>
      if 48 ≤ c.toNat ∧ c.toNat ≤ 57 ∧ digits.length < 10 then { p with partialDigits := some (digits ++ [c]) }
      else if c.toNat = 13 ∧ digits.length = 10 then { p with partialDigits := none, complete := labelOf digits }
      else { p with partialDigits := none }

/-- REFERENCE_CHARACTER (R13). -/
def execReferenceCharacter (c : Byte) (framingError : Bool) (s : State) : Host.Outcome State Fault Refusal :=
  if s.port.state = .notFitted then noEvent s else finish (s.setPort (s.port.receive c framingError))

/-- REFERENCE_MESSAGE (R13): a complete message becomes the pending label, with the moment of its completion, unless its day or
its second is out of range. -/
def execReferenceMessage (day second : Nat) (s : State) : Host.Outcome State Fault Refusal :=
  if s.port.state = .notFitted then noEvent s
  else
    let p := { s.port with partialDigits := none, complete := none }
    let p := if labelFits day second then { p with pending := some ({ day := day, second := second }, s.clock.osc) } else p
    finish (s.setPort p)

/-- The label one second after another, none after day 65535, second 86399 (R15). -/
def Label.succ (l : Label) : Option Label :=
  if l.second < 86399 then some { l with second := l.second + 1 }
  else if l.day < 65535 then some { day := l.day + 1, second := 0 }
  else none

/-- The label time in µs (R17). -/
def Label.time (l : Label) : Nat := l.day * Config.day + l.second * 1000000

/-- The loss of the reference: a VALID port returns to SEARCHING, and Reference is left for Holdover (R16, R42). The latest offset is the one
that stood (DEDUCED, unsafe, log entry 19). -/
def loseReference (p : RefPort) (s : State) : State :=
  let wasValid := s.port.state == .valid
  let s := setPortUnit { p with state := .searching } s
  if wasValid && s.agree.state == .reference then enterAgreement .holdover s else s

/-- The port becomes VALID: the first setting from an Unset station, else Reference with the offset held (R15, R17, R41). -/
def reachValid (p : RefPort) (offset : Int) (s : State) : State :=
  let s := setPortUnit { p with state := .valid } s
  if s.clock.cls = .unset then
    firstSetting offset .reference (s.setAgree { s.agree with refOffset := none })
  else
    enterAgreement .reference (s.setAgree { s.agree with refOffset := some offset })

/-- A labelled pulse (R15–R17). -/
def labelledPulse (l : Label) (p : RefPort) (s : State) : State :=
  let offset : Int := (l.time : Int) - (sampleDate s).time
  let consecutive := match p.lastLabel with
    | none => true
    | some x => x.succ == some l
  if consecutive then
    let count := satAdd 3 p.count 1
    let p := { p with count := count, lastLabel := some l, offset := some offset }
    if p.state == .valid then (s.setPort p).setAgree { s.agree with refOffset := some offset }
    else if count = 3 then reachValid p offset s
    else s.setPort p
  else if p.state == .valid then loseReference { p with count := 1, lastLabel := some l } s
  else s.setPort { p with count := 1, lastLabel := some l, offset := some offset }

/-- The label that a pulse is labelled with: a pending one whose message completed at least 100 ms before the sample (R14). -/
def pulseLabel (p : RefPort) (sampledAt : OscTime) : Option Label :=
  match p.pending with
  | some (l, done) => if done + msPeriods 100 ≤ sampledAt then some l else none
  | none => none

/-- A pulse on RPPS (R14–R16). -/
def takePulse (s : State) : State :=
  let at0 := s.input.sampledAt.getD s.clock.osc
  let p := { s.port with pending := none, pulseSeen := false, lossFrom := some at0 }
  match pulseLabel s.port at0 with
  | some l => labelledPulse l p s
  | none => loseReference { p with count := 0, lastLabel := none } s

/-- REFERENCE_PULSE (R14). -/
def execReferencePulse (s : State) : Host.Outcome State Fault Refusal :=
  if s.port.pulseSeen && s.port.state != .notFitted then finish (takePulse s) else noEvent s

/-- Whether the loss timer has reached 2.5 s (R16). -/
def lossReached (s : State) : Bool :=
  match s.port.lossFrom with
  | some t => decide (t + msPeriods 2500 ≤ s.clock.osc)
  | none => false

/-- REFERENCE_LOSS_TIMEOUT (R16). -/
def execReferenceLossTimeout (s : State) : Host.Outcome State Fault Refusal :=
  if lossReached s && s.port.state != .notFitted then
    finish (loseReference { s.port with count := 0, lastLabel := none, lossFrom := none } s)
  else noEvent s

end Sys2Proof.Machine
end

