-- ==== Sys2Proof/Machine/Listening.lean ====
section
/-! DEFINITION. What the station hears of the others (R25–R27, R52, R61, R111, R112, R114, R165): the end of a reception, silence
and gaps, and the commands BEACON, MARK, NEWS, DUPLICATE_STATION_TELEGRAM, TELEGRAM_IGNORED and TELEGRAM_DROPPED. -/

namespace Sys2Proof.Machine

/-! ### The line controller's part of a reception (R50, R52, R61–R63) -/

/-- What the line controller sees on the line. -/
def setActivity (a : Activity) (s : State) : State := s.setLine { s.line with activity := a }

/-- A half-bit, in oscillator periods (R46). -/
def halfPeriods (s : State) : Nat := bitPeriods s / 2

/-- The end of the last driven half-bit of a telegram whose last bit-time ended at `done`: a 0 ends with a released half-bit (R47). -/
def lastDriven (x : Telegram) (done : OscTime) (s : State) : OscTime :=
  if lastBit x then done else done - halfPeriods s

/-- The line is busy, and quiet is measured from a moment on (R47). -/
def quietSince (t : OscTime) (s : State) : State := s.setLine { s.line with activity := .busy, quietFrom := some t }

/-- The end of a reception, at the end of the quiet bit-time after the check (R47, R50). -/
def afterReception (x : Telegram) (s : State) : State :=
  quietSince (lastDriven x (s.clock.osc - bitPeriods s) s) s

/-- The line counters. -/
def setCounters (c : LineCounters) (s : State) : State := s.setLine { s.line with counters := c }

/-- An event of the LINE source: the line trouble flag is set and LINE latches (R63). -/
def lineEvent (s : State) : State := latch .line (s.setLine { s.line with trouble := true })

/-- A duplicate-station telegram: counted, a LINE event, and nothing else (R61). -/
def duplicateHeard (s : State) : State :=
  lineEvent (setCounters { s.line.counters with duplicates := count16 s.line.counters.duplicates } s)

/-- The source of a telegram received whole is reported to the news unit (R112). -/
def reportHeard (src : Station) (s : State) : State :=
  s.setNews { s.news with heard := setAt s.news.heard src true, silence := setAt s.news.silence src 0 }

/-- The end of the reception of `x`: the line is busy until it is next free (R47), a telegram with the station's own number is a duplicate
(R61), any other is reported (R112) and handed on with the date of its start sequence (R52). -/
def receive (x : Telegram) (src : Station) (hand : Date → State → State) (s : State) : Host.Outcome State Fault Refusal :=
  match s.line.activity with
  | .hearing d =>
    let s := afterReception x s
    if src = own s then finish (duplicateHeard s) else finish (hand d (reportHeard src s))
  | _ => noEvent s

/-- TELEGRAM_DROPPED (R50, R51): what was seen on the line is dropped by framing, length, check or consistency, and counted. Quiet is
measured from the last driven half-bit seen (R47). -/
def execTelegramDropped (seen : List BitTime) (s : State) : Host.Outcome State Fault Refusal :=
  if (match s.line.activity with
      | .framing => true
      | .hearing _ => true
      | _ => false) && receptionOf (own s) seen == .dropped then
    finish (setCounters { s.line.counters with checkFailures := count16 s.line.counters.checkFailures }
      (quietSince (s.clock.osc - releasedHalves seen * halfPeriods s) s))
  else noEvent s

/-- DUPLICATE_STATION_TELEGRAM (R61). -/
def execDuplicateStationTelegram (t : Telegram) (s : State) : Host.Outcome State Fault Refusal :=
  match s.line.activity with
  | .hearing _ => if classify (own s) t = .duplicate then finish (duplicateHeard (afterReception t s)) else noEvent s
  | _ => noEvent s

/-- TELEGRAM_IGNORED (R52): the source is reported (R112), nothing is counted and nothing handed on. -/
def execTelegramIgnored (t : Telegram) (s : State) : Host.Outcome State Fault Refusal :=
  if classify (own s) t = .ignored then receive t (sourceOf t) (fun _ s => s) s else noEvent s

/-! ### Beacons (R25–R27) -/

/-- The offset of a received beacon: transmit time + D − A (R25). -/
def beaconOffset (transmit : BitVec 56) (delay : Nat) (heardAt : LineTime) : Int :=
  (transmit.toNat : Int) + delay - heardAt

/-- A beacon that the agreement unit discards: of class UNSET, or beyond one day for a station that is set (R26). -/
def beaconDiscarded (cls ownClass : ClockClass) (offset : Int) : Bool :=
  cls == .unset || (ownClass != .unset && decide (Config.day < offset.natAbs))

/-- A peer table entry after a usable beacon (R27). -/
def Peer.take (p : Peer) (cls : ClockClass) (offset : Int) : Peer :=
  { p with offset := some offset, cls := some cls, heard := true }

/-- The agreement unit takes a beacon: discarded and counted, or recorded while the interval timer runs (R22, R26, R27). -/
def takeBeacon (src : Station) (cls : ClockClass) (transmit : BitVec 56) (d : Date) (s : State) : State :=
  let offset := beaconOffset transmit s.settings.delay d.time
  if beaconDiscarded cls s.clock.cls offset then
    setCounters { s.line.counters with discards := count16 s.line.counters.discards } s
  else if s.agree.timerFrom.isSome then setPeer src (s.agree.peers[src].take cls offset) s
  else s

/-- BEACON (R25). The agreement state and the alarm-standing flag that it carries are not used but for the telegram's check (R47). -/
def execBeacon (src : Station) (cls : ClockClass) (stateCode : BitVec 3) (alarm : Bool) (transmit : BitVec 56)
    (s : State) : Host.Outcome State Fault Refusal :=
  receive (beaconTelegram src cls stateCode alarm transmit) src (takeBeacon src cls transmit) s

/-! ### Marks (R165) -/

/-- A heard mark, its windows clamped (R165). -/
def heardMark (src : Station) (number reason subject : Byte) (time : BitVec 56) (pre post : BitVec 16) : MarkInfo :=
  { originator := src, number := number, reason := reason, subject := subject, time := time.toNat
    pre := clamp 0 600 pre.toNat, post := clamp 0 600 post.toNat }

/-- MARK (R165). -/
def execMark (src : Station) (number reason subject : Byte) (time : BitVec 56) (pre post : BitVec 16) (s : State) :
    Host.Outcome State Fault Refusal :=
  receive (markTelegram src number reason subject time pre post) src (fun _ s => applyHeard (heardMark src number reason subject time pre post) s) s

/-! ### Watch entries becoming UNCERTAIN (R114) -/

/-- Whether an entry of one of these stations is not yet UNCERTAIN. -/
def WatchEntry.doubted (stations : Station → Bool) (w : WatchEntry) : Bool :=
  stations w.station && w.condition != .uncertain

/-- Every watch entry of these stations becomes UNCERTAIN, and each whose condition changed is reported, one at a time in a free
order, to the points and check entries that name it (R114). All are UNCERTAIN before the first report (DEDUCED, unsafe, log entry 14). -/
def makeUncertain (stations : Station → Bool) (s : State) : State :=
  let changed := s.watch.filter (WatchEntry.doubted stations)
  let s := s.setWatch (s.watch.map fun w => if stations w.station then { w with condition := .uncertain } else w)
  let (order, s) := inAnyOrder changed s
  order.foldl (fun acc w => reportInput w.station w.input acc) s

/-- The silence count of one station at an interval end (R112). -/
def silenceAfter (heard : Bool) (count : Nat) : Nat := if heard then 0 else satAdd 3 count 1

/-- The news unit at an interval end: silence is counted, heard flags are cleared, and stations that fall silent have their
watch entries made UNCERTAIN (R112). -/
def countSilence (s : State) : State :=
  let n := s.news
  let me := own s
  let counts : Vector Nat 32 :=
    Vector.ofFn fun i => if i = me then n.silence[i] else silenceAfter n.heard[i] n.silence[i]
  let fallen : Station → Bool := fun i => n.silence[i] != 3 && counts[i] == 3
  makeUncertain fallen (s.setNews { n with silence := counts, heard := Vector.replicate 32 false })

/-! ### NEWS (R111, R114) -/

/-- Whether a heard NEWS telegram is in order (R111). -/
def newsInOrder (last : Option (BitVec 16)) (sequence : BitVec 16) (gap : Nat) : Bool :=
  match last with
  | none => true
  | some x => x + 1 == sequence && gap == 0

/-- One heard record: a matching watch entry takes it, and it is delivered (R114). -/
def hearRecord (src : Station) (s : State) (r : Record) : State :=
  if h : r.subject.toNat < 64 then
    let input : InputNo := ⟨r.subject.toNat, h⟩
    match watchEntry s src input, conditionFrom r with
    | some _, some c => deliverInput src input r (s.setWatch (setCondition src input c s.watch))
    | _, _ => s
  else s

/-- A gap for a station: it is counted, and its watch entries become UNCERTAIN (R111). -/
def hearGap (src : Station) (s : State) : State :=
  makeUncertain (fun i => i == src)
    (s.setNews { s.news with counters := { s.news.counters with gapsHeard := count16 s.news.counters.gapsHeard } })

/-- The three steps of a heard NEWS telegram (R111). -/
def hearNews (src : Station) (sequence : BitVec 16) (gap : Byte) (records : List Record) (s : State) : State :=
  let s := if newsInOrder s.news.lastSequence[src] sequence gap.toNat then s else hearGap src s
  let s := s.setNews { s.news with lastSequence := setAt s.news.lastSequence src (some sequence) }
  records.foldl (hearRecord src) s

/-- NEWS (R111). -/
def execNews (src : Station) (sequence : BitVec 16) (gap : Byte) (records : List Record) (s : State) :
    Host.Outcome State Fault Refusal :=
  receive (newsTelegram src sequence gap records) src (fun _ s => hearNews src sequence gap records s) s

end Sys2Proof.Machine
end

