-- ==== Sys2Proof/Machine/AgreementUnit.lean ====
section
/-! DEFINITION. The agreement unit at an interval end (R22, R28–R42): members, the midpoint, outlier streaks, the states' rules, and
the command INTERVAL_END. -/

namespace Sys2Proof.Machine

/-! ### Members and the midpoint (R28, R29) -/

/-- A member of the set: its offset and its station number. -/
abbrev Member := Int × Station

/-- The better of two classes, the one with the lower number (R9). -/
def betterClass (a : Option ClockClass) (b : ClockClass) : Option ClockClass :=
  match a with
  | none => some b
  | some x => if b.number < x.number then some b else some x

/-- B: the best class among entries heard this interval (R28). -/
def bestHeard (peers : Vector Peer 32) : Option ClockClass :=
  peers.toList.foldl
    (fun acc p =>
      match p.heard, p.cls with
      | true, some c => betterClass acc c
      | _, _ => acc) none

/-- The peers of class B that were heard, with their last offsets (R28). -/
def peersOfClass (peers : Vector Peer 32) (best : ClockClass) : List Member :=
  (List.finRange 32).filterMap fun i =>
    match peers[i].heard, peers[i].cls, peers[i].offset with
    | true, some c, some o => if c = best then some (o, i) else none
    | _, _, _ => none

/-- The member set; no members where the interval is empty (R28). -/
def memberSet (peers : Vector Peer 32) (me : Station) (ownClass : ClockClass) : List Member :=
  match bestHeard peers with
  | none => []
  | some best =>
    if best.number ≤ ownClass.number then
      match peersOfClass peers best with
      | [] => []
      | ps => if ownClass = best ∧ ownClass ≠ .unset then ps ++ [(0, me)] else ps
    else []

/-- Put a member in its place in a sorted list: by offset, the lower station number first among equals (R29). -/
def insertMember (m : Member) : List Member → List Member
  | [] => [m]
  | x :: rest => if m.1 < x.1 ∨ (m.1 = x.1 ∧ m.2.val ≤ x.2.val) then m :: x :: rest else x :: insertMember m rest

/-- The members sorted (R29). -/
def sortMembers (ms : List Member) : List Member := ms.foldr insertMember []

/-- How many members are set aside at each end (R29). -/
def setAside (n : Nat) : Nat := if n ≤ 2 then 0 else if n ≤ 6 then 1 else 2

/-- The members kept (R29). -/
def keptMembers (ms : List Member) : List Member :=
  let f := setAside ms.length
  ((sortMembers ms).drop f).take (ms.length - 2 * f)

/-- C: half the sum of the least and the greatest offset kept, rounded toward zero (R29). -/
def midpoint (ms : List Member) : Int :=
  let kept := keptMembers ms
  Int.tdiv ((kept.head?.map Prod.fst).getD 0 + (kept.getLast?.map Prod.fst).getD 0) 2

/-! ### Outlier streaks (R30) -/

/-- A member set aside as an extreme. -/
def Peer.extreme (p : Peer) : Peer :=
  let n := satAdd 8 p.streak 1
  { p with streak := n, outlier := p.outlier || n == 8 }

/-- A member kept. -/
def Peer.kept (p : Peer) : Peer := { p with streak := 0, outlier := false }

/-- The peer table after a midpoint: the peers among the members, not the station itself (R27, R30). -/
def updateStreaks (me : Station) (ms : List Member) (peers : Vector Peer 32) : Vector Peer 32 :=
  let kept := keptMembers ms
  Vector.ofFn fun i =>
    if i != me && ms.any (fun m => m.2 == i) then
      (if kept.any fun m => m.2 == i then peers[i].kept else peers[i].extreme)
    else peers[i]

/-! ### Applying C (R31–R33) -/

/-- Small: within the step threshold (R31). -/
def smallC (c : Int) (s : State) : Bool := decide (c.natAbs ≤ s.settings.thresholdMs * 1000)

/-- A normal correction: slew C/T, trim change C/(4T), in 0.01 ppm (R32). -/
def correct (c : Int) (s : State) : State :=
  normalCorrection c (roundHalfAway (c * 100) s.settings.interval) (roundHalfAway (c * 100) (4 * s.settings.interval)) s

/-- A step or a fast slew (R33), with its record. -/
def stepOrSlew (c : Int) (s : State) : State := if 0 < c then stepForward c s else startFastSlew c s

/-- What a step leaves to do once the records of the interval end are written (R6, R18). -/
def afterStep (c : Int) (s : State) : State := if 0 < c then afterJump s else s

/-- A step or a fast slew, and all that follows. -/
def applyLarge (c : Int) (s : State) : State := afterStep c (stepOrSlew c s)

/-! ### The states' rules (R36–R42) -/

/-- The agreement unit's three counts. -/
def setCounts (lock dispute empty : Nat) (s : State) : State :=
  s.setAgree { s.agree with lockCount := lock, disputeCount := dispute, emptyCount := empty }

/-- Acquiring (R37). -/
def acquire (c : Int) (s : State) : State :=
  if smallC c s then
    let s := correct c s
    if c.natAbs ≤ 250 then
      if 4 ≤ s.agree.lockCount + 1 then enterAgreement .locked s
      else setCounts (s.agree.lockCount + 1) s.agree.disputeCount s.agree.emptyCount s
    else setCounts 0 s.agree.disputeCount s.agree.emptyCount s
  else applyLarge c (setCounts 0 s.agree.disputeCount s.agree.emptyCount s)

/-- Locked, not empty (R38). -/
def stayLocked (c : Int) (s : State) : State :=
  if smallC c s then setCounts s.agree.lockCount 0 0 (correct c s)
  else if 3 ≤ s.agree.disputeCount + 1 then
    afterStep c (enterAgreement .acquiring (stepOrSlew c (latch .clock (setCounts s.agree.lockCount 3 0 s))))
  else latch .clock (setCounts s.agree.lockCount (s.agree.disputeCount + 1) 0 s)

/-- Locked, empty (R39). -/
def lockedEmpty (s : State) : State :=
  if 4 ≤ s.agree.emptyCount + 1 then enterAgreement .holdover s
  else setCounts s.agree.lockCount s.agree.disputeCount (s.agree.emptyCount + 1) s

/-- Holdover, not empty (R40). -/
def holdOver (c : Int) (s : State) : State :=
  if smallC c s then enterAgreement .locked (correct c s)
  else afterStep c (enterAgreement .acquiring (stepOrSlew c s))

/-- Reference (R42). -/
def followReference (c : Int) (s : State) : State := if smallC c s then correct c s else applyLarge c s

/-- An interval end that takes a midpoint: C is kept, streaks are updated, and the state acts (R29, R30, R36–R40). -/
def takeMidpoint (ms : List Member) (s : State) : State :=
  let c := midpoint ms
  let s := s.setAgree { s.agree with lastMidpoint := some c, peers := updateStreaks (own s) ms s.agree.peers }
  match s.agree.state with
  | .unset => firstSetting c .acquiring s
  | .acquiring => acquire c s
  | .locked => stayLocked c s
  | .holdover => holdOver c s
  | .reference => s

/-- Step 1 of an interval end outside a fast slew (R22, R28, R36–R42). -/
def workOut (s : State) : State :=
  if s.agree.state = .reference then
    match s.agree.refOffset with
    | some c => followReference c s
    | none => s
  else
    let ms := memberSet s.agree.peers (own s) s.clock.cls
    let s := s.setAgree
      { s.agree with
        lastSet := some { noPeer := ms.isEmpty, best := bestHeard s.agree.peers, count := ms.length } }
    match ms with
    | [] => if s.agree.state = .locked then lockedEmpty s else s
    | _ => takeMidpoint ms s

/-- Step 2 (R22), and the line trouble flag cleared (R63). -/
def closeInterval (s : State) : State :=
  let s := s.setAgree
    { s.agree with
      peers := s.agree.peers.map fun p => { p with heard := false }
      refOffset := none
      timerFrom := s.agree.timerFrom.map (· + secondPeriods s.settings.interval) }
  s.setLine { s.line with trouble := false }

/-- Whether the interval timer has reached an interval end (R22). -/
def intervalReached (s : State) : Bool :=
  match s.agree.timerFrom with
  | some t => decide (t + secondPeriods s.settings.interval ≤ s.clock.osc)
  | none => false

/-- An interval end (R22): the slew ends (R5), the correction is worked out unless a fast slew runs (R34), the interval is closed,
and the news unit counts silence. -/
def endInterval (s : State) : State :=
  let s := s.setClock { s.clock with slew := 0 }
  let s := if s.clock.fastSlewEnd.isSome then s else workOut s
  countSilence (closeInterval s)

/-- INTERVAL_END (R22). -/
def execIntervalEnd (s : State) : Host.Outcome State Fault Refusal :=
  if intervalReached s then finish (endInterval s) else noEvent s

end Sys2Proof.Machine
end

