-- ==== Sys2Proof/Machine/Reader.lean ====
section
/-! DEFINITION. The history reader (R91–R101): accepting and cancelling reads, waiting for the news, visiting, the finish of its
telegrams, and the command HISTORY_VISIT. -/

namespace Sys2Proof.Machine

/-- The in use flag of the hold that a read's source names (R93, R97, R100). -/
def markUse (source : ReadSource) (used : Bool) (s : State) : State :=
  match source with
  | .journal => s
  | .hold o n => setHolds (s.marks.holds.map fun h => if h.named o n then { h with inUse := used } else h) s

/-- The read ends: IDLE, and its hold is no longer in use (R97, R100). -/
def endRead (rd : Read) (s : State) : State := markUse rd.source false (s.setReader none)

/-- The records of a source in their order (R93). -/
def scopeOf (s : State) : ReadSource → List Record
  | .journal => s.journal.records
  | .hold o n =>
    match s.marks.holds.find? fun h => h.named o n with
    | some h => h.records
    | none => []

/-- The flush target a read takes: the newest record queued, else the last of the telegram in formation or on the line (R94). -/
def flushTargetOf (n : NewsUnit) : Option JournalNo :=
  match n.queue.getLast? with
  | some q => some q.1.number
  | none =>
    match n.sender with
    | .idle => none
    | .formed t => t.records.getLast?.map Record.number
    | .placed t => t.records.getLast?.map Record.number

/-- Hand the news unit a flush request where there is a target; its sender looks at once (R94, R105, R109). -/
def requestFlush (target : Option JournalNo) (s : State) : State :=
  match target with
  | none => s
  | some _ => newsLook (s.setNews { s.news with flushTarget := target })

/-- Accept a read (R93, R94). Where the scope is empty `next` is 0 (DESIGN CHOICE, unsafe, log entry 22). -/
def acceptRead (requester : Station) (tag : Byte) (source : ReadSource) (fromDate toDate : LineTime) (mask : BitVec 16)
    (s : State) : State :=
  let scope := scopeOf s source
  let target := flushTargetOf s.news
  let rd : Read :=
    { mode := .newsWait, requester := requester, tag := tag, source := source, fromDate := fromDate, toDate := toDate
      mask := mask, next := (scope.head?.map Record.number).getD 0, position := 0, remaining := scope.length
      skipped := 0, collected := [], ends := false, target := target, answered := false }
  requestFlush target (markUse source true (s.setReader (some rd)))

/-- NEWS_WAIT is left once the target has finished and the ACCEPTED answer has (R94). -/
def readerLook (s : State) : State :=
  match s.reader with
  | some rd =>
    if rd.mode == .newsWait && rd.target.isNone && rd.answered then
      collectLook (s.setReader (some { rd with mode := .collecting }))
    else s
  | none => s

/-- The news unit's report that the telegram carrying a flush target has finished (R94, R108, R109). -/
def targetFinished (target : JournalNo) (s : State) : State :=
  match s.reader with
  | some rd => if rd.target = some target then readerLook (s.setReader (some { rd with target := none })) else s
  | none => s

/-- The report that the ACCEPTED answer of the read in service has finished (R94, R193). -/
def acceptedFinished (s : State) : State :=
  match s.reader with
  | some rd => readerLook (s.setReader (some { rd with answered := true }))
  | none => s

/-- The line controller's report that the telegram in the class 3 slot has finished, the slot now EMPTY (R96, R97, R100). -/
def historyFinished (s : State) : State :=
  match s.reader with
  | none => s
  | some rd =>
    match rd.mode with
    | .placed => if rd.ends then endRead rd s else collectLook (s.setReader (some { rd with mode := .collecting }))
    | .ready => placeHistory rd s
    | _ => s

/-- Whether a record matches a read: its date in range and its kind in the mask, whose bits 11–15 name no kind (R92, R95). -/
def Read.selects (rd : Read) (r : Record) : Bool :=
  decide (rd.fromDate ≤ r.date.time) && decide (r.date.time ≤ rd.toDate) &&
    decide (kindNumber r.kind ≤ 10) && rd.mask.getLsbD (kindNumber r.kind)

/-- The next record to visit (R95, R99). -/
def nextRecord (rd : Read) (s : State) : Option Record :=
  match rd.source with
  | .journal => recordAt s.journal rd.next
  | .hold _ _ => (scopeOf s rd.source)[rd.position]?

/-- The number of the record that follows a visited one in the scope (R95). After the last record of a hold's scope it is the number of a
record that the hold took since, or else the visited one's (DESIGN CHOICE, unsafe, log entry 22). -/
def followingNumber (rd : Read) (s : State) : JournalNo :=
  match rd.source with
  | .journal => rd.next + 1
  | .hold _ _ => (((scopeOf s rd.source)[rd.position + 1]?).map Record.number).getD rd.next

/-- A read after a visit (R95). -/
def Read.visited (rd : Read) (r : Record) (following : JournalNo) : Read :=
  { rd with
    collected := if rd.selects r then rd.collected ++ [r] else rd.collected
    next := following
    position := rd.position + 1
    remaining := rd.remaining - 1 }

/-- HISTORY_VISIT (R95). -/
def execHistoryVisit (s : State) : Host.Outcome State Fault Refusal :=
  match s.reader with
  | some rd =>
    if rd.mode == .collecting && decide (0 < rd.remaining) then
      match nextRecord rd s with
      | some r => finish (collectLook (s.setReader (some (rd.visited r (followingNumber rd s)))))
      | none => noEvent s
    else noEvent s
  | none => noEvent s

end Sys2Proof.Machine
end

