-- ==== Sys2Proof/Machine/Restarting.lean ====
section
/-! DEFINITION. Starts and restarts (R198–R204) with the restart rule of every block, the configuration read, and the commands
POWER_ON, RESTART_PIN, CONFIG_READ_BEGIN, CONFIG_ATTEMPT_RETRY, CONFIG_READ_END and BYTE_NOT_ACKNOWLEDGED. -/

namespace Sys2Proof.Machine

/-! ### The blocks at the moment of a warm restart -/

/-- The clock unit (R20): the slew ends and the demotion's class is taken; all else is kept. -/
def Clock.restarted (c : Clock) (cls : ClockClass) : Clock := { c with slew := 0, cls := cls }

/-- The state a warm restart leaves (R45). -/
def demoted : AgreementState → AgreementState
  | .reference => .holdover
  | .locked => .holdover
  | .acquiring => .acquiring
  | .holdover => .holdover
  | .unset => .unset

/-- The agreement unit (R45). -/
def Agreement.restarted (a : Agreement) : Agreement :=
  { a with
    state := demoted a.state, lockCount := 0, disputeCount := 0, emptyCount := 0
    timerFrom := none, refOffset := none, phase := none, peers := Vector.replicate 32 Peer.cleared }

/-- The line controller (R64). -/
def lineStopped : LineControl :=
  { running := false, activity := .busy, freeAt := none, quietFrom := none, slots := Vector.replicate 4 .vacant
    fairness := false, newsFilledLast := false, trouble := false, counters := LineCounters.zero }

/-- One channel (R83). -/
def Channel.restarted (c : Channel) : Channel := { Channel.atPowerOn with defn := c.defn }

/-- The input unit (R83): the sample clock runs on. -/
def InputUnit.restarted (u : InputUnit) : InputUnit :=
  { u with channels := u.channels.map Channel.restarted, secondFrom := none, secondAwaited := false }

/-- The news unit (R110, R119). -/
def NewsUnit.restarted (n : NewsUnit) : NewsUnit :=
  { n with
    queue := [], gap := satAdd 255 n.gap n.queue.length, sender := .idle, flushTarget := none
    counters := NewsCounters.zero, lastSequence := Vector.replicate 32 none
    heard := Vector.replicate 32 false, silence := Vector.replicate 32 0 }

/-- One point (R142). Its dropped views stand at NEVER_HEARD (DESIGN CHOICE, unsafe, log entry 38). -/
def Point.restarted (p : Point) : Point :=
  { p with state := .unknown, startFailed := false, views := Point.atPowerOn.views }

/-- One hold (R178). -/
def Hold.restarted (h : Hold) : Hold :=
  let h := { h with inUse := false }
  if h.state == .closed then h else h.truncate

/-- The mark unit (R178). -/
def MarkUnit.restarted (m : MarkUnit) : MarkUnit :=
  { m with outgoing := [], notSent := 0, holds := m.holds.map Hold.restarted }

/-- One impulse line (R191). Its target goes with its target change deadline (DEDUCED, unsafe, log entry 23). -/
def Dial.restarted (d : Dial) : Dial :=
  let position := if d.state == .pulsing then none else d.position
  { d with
    position := position
    state := if position.isSome then .idle else .unset
    failed := 0, target := none, deadline := none, last := none, test := false, sensed := false, wait := none }

/-- The query and status unit (R196, R204). -/
def QueryUnit.restarted (q : QueryUnit) (cause : RestartCause) : QueryUnit :=
  { q with answers := [], restartPending := false, latched := 0, cause := cause }

/-- The configuration read still to begin (R199, R202). Until it has ended the unusable reason is none and the record's check field is that of the
read before; R195 to R204 give neither (DESIGN CHOICE, unsafe, log entry 40). -/
def ConfigUnit.restarted (c : ConfigUnit) : ConfigUnit :=
  { c with state := .reading, phase := .awaited, failures := 0, reason := .none }

/-- Every block as its restart rule leaves it (R204). -/
def restartBlocks (cause : RestartCause) (s : State) : State :=
  { clock := s.clock.restarted (classOf (demoted s.agree.state))
    port := portStarted false s.port
    agree := s.agree.restarted
    line := lineStopped
    input := s.input.restarted
    journal := s.journal
    reader := none
    news := s.news.restarted
    watch := []
    points := s.points.map Point.restarted
    checks := Vector.replicate 256 none
    marks := s.marks.restarted
    dials := s.dials.map Dial.restarted
    query := s.query.restarted cause
    config := s.config.restarted
    settings := s.settings
    pins := s.pins
    choices := s.choices
    pending := s.pending }

/-- DIAL LOST, an event of the DIAL source (R186, R188). -/
def writeDialLost (l : DialNo) (position : Nat) (s : State) : State := latch .dial (writeRecord (dialDraft 3 l position s) s)

/-- The RESTART record of a warm restart, stamped with the class before the demotion (R204). -/
def restartDraft (cause : RestartCause) (date : Date) (s : State) : Record :=
  plainDraft .restart date 0 (causeCode cause) none s

/-- A warm restart, at one moment: the blocks, then the records in the order of R204. -/
def warmRestart (cause : RestartCause) (s : State) : State :=
  let before := s
  let s := relatch (restartBlocks cause s)
  let s := writeRecord (restartDraft cause (now before) s) s
  let s := if s.clock.cls = before.clock.cls then s else writeClock 2 s.clock.cls.number s
  let s := (before.marks.holds.filter fun h => h.state != .closed).foldl (fun acc h => writeRecord (holdDraft 0 h acc) acc) s
  (List.finRange 4).foldl
    (fun acc l =>
      let d := before.dials[l]
      match d.state, d.position with
      | .pulsing, some p => writeDialLost l p acc
      | _, _ => acc) s

/-- RESTART_PIN (R202): the restart edge seen at the latest sample. -/
def execRestartPin (s : State) : Host.Outcome State Fault Refusal :=
  if s.pins.restartEdge then finish (warmRestart .pin (s.setPins { s.pins with restartEdge := false })) else noEvent s

/-- POWER_ON (R202): power-on values everywhere; the levels at the pins are not the part's to change. -/
def execPowerOn (s : State) : Host.Outcome State Fault Refusal :=
  let s1 := relatch
    (((State.reset.setPins { s.pins with sampled := false, restartEdge := false }).setChoices s.choices).setPending s.pending)
  finish (writeRecord (restartDraft .powerOn (now s1) s1) s1)

/-! ### The configuration read (R199, R202) -/

/-- CONFIG_READ_BEGIN (R199, R202): at the first sample that reads RSTN inactive, or after it, the straps are read and the first attempt
starts. -/
def execConfigReadBegin (straps : BitVec 5) (s : State) : Host.Outcome State Fault Refusal :=
  if s.config.phase = .awaited ∧ s.pins.sampled = true ∧ s.pins.restart = false then
    finish
      ((s.setPins { s.pins with straps := straps }).setConfig
        { s.config with state := .reading, phase := .attempt, failures := 0, station := Fin.ofNat 32 straps.toNat })
  else noEvent s

/-- BYTE_NOT_ACKNOWLEDGED (R199): the attempt ends; the next starts 10 ms later, or the third has failed. -/
def execByteNotAcknowledged (s : State) : Host.Outcome State Fault Refusal :=
  if s.config.phase = .attempt then
    let failures := s.config.failures + 1
    finish
      (s.setConfig
        { s.config with
          failures := failures
          phase := if 3 ≤ failures then .failed else .retryAt (s.clock.osc + msPeriods 10) })
  else noEvent s

/-- CONFIG_ATTEMPT_RETRY (R199). -/
def execConfigAttemptRetry (s : State) : Host.Outcome State Fault Refusal :=
  match s.config.phase with
  | .retryAt t => if t ≤ s.clock.osc then finish (s.setConfig { s.config with phase := .attempt }) else noEvent s
  | _ => noEvent s

/-! ### The blocks at the end of the read -/

/-- A channel takes its settings, and is STARTING where it is enabled (R66, R67, R74). It has read no level yet, since samples before this are
used by no channel (R83), so that until its first sample status page 4 shows none for the level read (R82 says none in OFF only; DEDUCED,
unsafe, log entry 18). -/
def Channel.configured (c : Channel) (d : InputDef) : Channel :=
  { c with defn := d, mode := if d.enabled then .starting else .off }

/-- The pairs that a definition names, remote ones only, each once (R115). -/
def remotePairs (me : Station) (d : PointDef) : List (Station × InputNo) :=
  ((Ref.all.map d.refs.at).filter fun x => x.1 != me).dedup

/-- Take a definition's references, none where its new pairs do not fit (R115). -/
def takeReferences (pairs : List (Station × InputNo)) (watch : List WatchEntry) : Option (List WatchEntry) :=
  let fresh := pairs.filter fun x => !(watch.any fun w => w.names x.1 x.2)
  if watch.length + fresh.length ≤ Config.watchSize then
    some (pairs.foldl (fun acc x => addReference x.1 x.2 acc) watch)
  else none

/-- A defined point as its definition is taken: UNKNOWN, its views from its inputs' conditions (R121, R122). -/
def Point.defined (p : Point) (d : PointDef) (s : State) : Point :=
  { p with
    defn := some d, noRoom := false, state := .unknown, startFailed := false
    views := d.refs.map fun r => conditionOf s r.1 r.2 }

/-- One point takes its definition and the watch table its references, in rising order of points (R115, R120). -/
def definePoint (defs : Vector (Option PointDef) 32) (s : State) (p : PointNo) : State :=
  let pt := s.points[p]
  match defs[p] with
  | none => s.setPoints (setAt s.points p { pt with defn := none, noRoom := false })
  | some d =>
    match takeReferences (remotePairs (own s) d) s.watch with
    | none => s.setPoints (setAt s.points p { pt with defn := none, noRoom := true })
    | some watch =>
      let s := s.setWatch watch
      s.setPoints (setAt s.points p (pt.defined d s))

/-- The preload of a service counter (R137). -/
def preload (interval : Nat) : Nat := if interval = 0 then 0 else 16777216 - interval

/-- The service counter at power-on (R137). -/
def Point.preloaded (p : Point) : Point :=
  { p with
    serviceDue := false
    service := match p.defn with
      | some d => preload d.interval
      | none => 0 }

/-- One impulse line at the end of the read (R191). -/
def startLine (defs : Vector DialDef 4) (s : State) (l : DialNo) : State :=
  let d := { s.dials[l] with defn := defs[l] }
  match d.position with
  | none => setDialState l { d with state := .unset, target := none, deadline := none, wait := none } s
  | some p =>
    if d.defn.enabled && d.defn.step == d.positionStep then setDialState l (d.targetFallsDue (now s) s.clock.osc) s
    else
      writeDialLost l p
        (setDialState l { d with position := none, state := .unset, target := none, deadline := none, wait := none } s)

/-- The chatter second begins at the sample at which the read ends: one already taken at this moment, else the next (R78; DEDUCED, unsafe,
log entry 8). -/
def InputUnit.configured (u : InputUnit) (defs : Vector InputDef 64) (osc : OscTime) : InputUnit :=
  let together := u.sampledAt == some osc
  { u with
    channels := Vector.ofFn fun i => u.channels[i].configured defs[i]
    secondFrom := if together then some osc else none
    secondAwaited := !together }

/-- The end of the read: every block takes its settings and begins (R4, R12, R22, R23, R64, R66, R110, R115, R120, R137, R179, R191,
R196, R199, R201). The news unit's sender looks before the impulse lines begin (R103), and these go in rising order, so that several DIAL
LOST records do (R191; DESIGN CHOICE, unsafe, log entry 34). -/
def configure (rec : ConfigRecord) (config : ConfigUnit) (s : State) : State :=
  let s := (s.setConfig config).setSettings rec.settings
  let s := if s.query.cause = .powerOn then s.setClock { s.clock with trim := rec.initialTrim } else s
  let s := s.setQuery { s.query with enables := rec.enables }
  let s := s.setInput (s.input.configured rec.inputs s.clock.osc)
  let s := (List.finRange 32).foldl (definePoint rec.points) (s.setWatch [])
  let s := if s.query.cause = .powerOn then s.setPoints (s.points.map Point.preloaded) else s
  let s := s.setLine { s.line with running := true, activity := .busy, freeAt := none, quietFrom := some s.clock.osc }
  let s := setPortUnit (portStarted rec.settings.referenceFitted s.port) s
  let s := setPhase (s.setAgree { s.agree with timerFrom := some s.clock.osc })
  let s := newsLook s
  (List.finRange 4).foldl (startLine rec.dials) s

/-- An unusable or absent record: UNCONFIGURED (R200, R201). -/
def configureWithout (why : Unusable) (check : BitVec 16) (s : State) : State :=
  configure unconfiguredRecord
    { s.config with state := .unconfigured, phase := .over, reason := why, check := check } s

/-- CONFIG_READ_END (R199): the third attempt has failed, or the bytes read make the record unusable, or it is whole. The memory is outside
the part, and the command carries what it answered (DESIGN CHOICE, safe, log entry 27). -/
def execConfigReadEnd (bytes : List Byte) (s : State) : Host.Outcome State Fault Refusal :=
  match s.config.phase with
  | .failed => finish (configureWithout .absent 0 s)
  | .attempt =>
    match judgeRecord bytes with
    | .unfinished => noEvent s
    | .unusable why => finish (configureWithout why (recordCheck bytes) s)
    | .usable rec =>
      finish (configure rec { s.config with state := .configured, phase := .over, reason := .none
                                            check := recordCheck bytes } s)
  | _ => noEvent s

end Sys2Proof.Machine
end

