-- ==== Sys2Proof/Machine/LineUnit.lean ====
section
/-! DEFINITION. The line controller's sending and contention (R47, R53–R60) and what its blocks do when a telegram finishes (R97, R108,
R164, R193, R203): the commands LINE_FREE, LINE_BUSY, START_SEQUENCE_HEARD, CONTENTION_SLOT, FAIRNESS_ROUND_END, MISMATCH,
TELEGRAM_SENT, and NEWS_BATCH_WAIT_END. -/

namespace Sys2Proof.Machine

/-! ### Busy and free (R47, R50, R57) -/

/-- The moment at which a busy line becomes free, if nothing more is driven: 16 bit-times after the end of the last driven half-bit (R47,
R60, R64). -/
def freeFrom (s : State) : Option OscTime :=
  if s.line.running && s.line.activity == .busy then s.line.quietFrom.map (· + 16 * bitPeriods s) else none

/-- Whether a busy line has been quiet for 16 bit-times (R47). -/
def quietEnough (s : State) : Bool :=
  match freeFrom s with
  | some t => decide (t ≤ s.clock.osc)
  | none => false

/-- LINE_FREE (R47): the line has been quiet for 16 bit-times, and contention slots are counted from their end (R55). -/
def execLineFree (s : State) : Host.Outcome State Fault Refusal :=
  if quietEnough s then finish (s.setLine { s.line with activity := .free, freeAt := freeFrom s }) else noEvent s

/-- LINE_BUSY (R47): a driven half-bit. The first after free ends the quiet, and is taken as the first bit of a telegram (R50); one on
a busy line is other driven activity, and quiet is measured from its end (DESIGN CHOICE, unsafe, log entry 28). -/
def execLineBusy (s : State) : Host.Outcome State Fault Refusal :=
  match s.line.activity with
  | .free => finish (setActivity .framing s)
  | .busy => if s.line.running then finish (quietSince (s.clock.osc + halfPeriods s) s) else noEvent s
  | _ => noEvent s

/-- START_SEQUENCE_HEARD (R57): the telegram is dated (R48) and the fairness hold clears. -/
def execStartSequenceHeard (s : State) : Host.Outcome State Fault Refusal :=
  if s.line.activity = .framing ∨ s.line.activity = .free then
    finish (s.setLine { s.line with activity := .hearing (now s), fairness := false })
  else noEvent s

/-! ### Contention (R55–R57) -/

/-- Bit-times from free to the station's own slot of a class within a round (R55). -/
def slotOffset (st : Station) (p : TelegramClass) : Nat := (32 * p.val + st.val) * 8

/-- Whether the station's own slot of a class begins at this moment of a quiet line (R55). -/
def slotBegins (p : TelegramClass) (s : State) : Bool :=
  match s.line.activity, s.line.freeAt with
  | .free, some t => decide (t ≤ s.clock.osc) &&
      decide ((s.clock.osc - t) % (1024 * bitPeriods s) = slotOffset (own s) p * bitPeriods s)
  | _, _ => false

/-- Whether a class's telegram is eligible at the slot of class p (R55, R57). -/
def eligible (s : State) (p k : TelegramClass) : Bool :=
  (match s.line.slots[k] with
    | .waiting _ _ => true
    | _ => false) && decide (k.val ≤ p.val) && (k.val == 0 || !s.line.fairness)

/-- The eligible telegram of the lowest class (R55). -/
def eligibleClass (s : State) (p : TelegramClass) : Option TelegramClass := (List.finRange 4).find? (eligible s p)

/-- The attempt starts (R55). -/
def startSending (k : TelegramClass) (s : State) : State :=
  match s.line.slots[k] with
  | .waiting t n => setActivity .sending (setSlot k (.sending t (n + 1) s.clock.osc) s)
  | _ => s

/-- CONTENTION_SLOT (R55). -/
def execContentionSlot (p : TelegramClass) (s : State) : Host.Outcome State Fault Refusal :=
  if slotBegins p s then
    match eligibleClass s p with
    | some k => finish (startSending k s)
    | none => noEvent s
  else noEvent s

/-- Whether the round that began at free has ended on a quiet line (R57). -/
def roundOver (s : State) : Bool :=
  match s.line.activity, s.line.freeAt with
  | .free, some t => decide (t + 1024 * bitPeriods s ≤ s.clock.osc)
  | _, _ => false

/-- FAIRNESS_ROUND_END (R57). -/
def execFairnessRoundEnd (s : State) : Host.Outcome State Fault Refusal :=
  if s.line.fairness && roundOver s then finish (s.setLine { s.line with fairness := false }) else noEvent s

/-! ### Finished telegrams -/

/-- A MARK telegram has finished: it leaves the list, a discarded one counts as not sent, and the next is placed (R164). -/
def markFinished (sent : Bool) (s : State) : State :=
  placeMark
    (s.setMarks
      { s.marks with
        outgoing := s.marks.outgoing.drop 1
        notSent := if sent then s.marks.notSent else count16 s.marks.notSent })

/-- A NEWS counter for a finished telegram (R108). -/
def NewsCounters.finished (c : NewsCounters) (sent : Bool) : NewsCounters :=
  if sent then { c with sent := count16 c.sent } else { c with discarded := count16 c.discarded }

/-- The flush target, where a telegram carries it (R108). -/
def carriedTarget (n : NewsUnit) (t : NewsTelegram) : Option JournalNo :=
  n.flushTarget.filter fun x => t.records.any fun r => r.number == x

/-- A NEWS telegram has finished (R108): it is counted, a flush target it carried is reported, the sender looks again, and the class 2
slot goes to the arbiter (R54). -/
def newsFinished (t : NewsTelegram) (sent : Bool) (s : State) : State :=
  let target := carriedTarget s.news t
  let s := s.setNews
    { s.news with
      sender := .idle
      counters := s.news.counters.finished sent
      flushTarget := if target.isSome then none else s.news.flushTarget }
  let s := match target with
    | some x => targetFinished x s
    | none => s
  arbitrate (newsLook s)

/-- The oldest answer's telegram has finished (R193, R194): its next part is offered, or it leaves the queue, with the report of an
ACCEPTED answer (R94) and the restart that a RESTART answer takes into effect (R203). -/
def answerFinished (s : State) : State :=
  match s.query.answers with
  | [] => arbitrate s
  | a :: rest =>
    if 2 ≤ a.parts.length then
      arbitrate (s.setQuery { s.query with answers := { a with parts := a.parts.tail } :: rest })
    else
      let s := s.setQuery { s.query with answers := rest }
      if a.forRestart then warmRestart .query s
      else arbitrate (if a.forRead then acceptedFinished s else s)

/-- The line controller's report to the block that filled the slot (R53). -/
def reportFinished (t : OutTelegram) (sent : Bool) (s : State) : State :=
  match t.payload with
  | .beacon _ => s
  | .mark _ => markFinished sent s
  | .news n => newsFinished n sent s
  | .answer _ _ _ _ => answerFinished s
  | .history _ _ _ _ _ => historyFinished s

/-! ### Sending (R58, R59) -/

/-- The oscillator moment at which a telegram that is being sent ends (R48). -/
def sendingEnd (s : State) (t : OutTelegram) (since : OscTime) : OscTime := since + telegramBits t * bitPeriods s

/-- A telegram sent whole (R58); quiet is measured from its last driven half-bit (R47). -/
def telegramSent (k : TelegramClass) (t : OutTelegram) (since : OscTime) (s : State) : State :=
  let s := quietSince (lastDriven (onTheLine (own s) t) (sendingEnd s t since) s) s
  let s := setCounters { s.line.counters with sent := count16 s.line.counters.sent } s
  let s := setSlot k .vacant s
  let s := if k.val = 0 then s else s.setLine { s.line with fairness := true }
  reportFinished t true s

/-- TELEGRAM_SENT (R58). -/
def execTelegramSent (s : State) : Host.Outcome State Fault Refusal :=
  match sendingSlot s with
  | some (k, t, _, since) =>
    if sendingEnd s t since ≤ s.clock.osc then finish (telegramSent k t since s) else noEvent s
  | none => noEvent s

/-- Whether a stopped telegram is discarded: a beacon at once, any other at 8 attempts (R59). -/
def discarded (k : TelegramClass) (attempts : Nat) : Bool := k.val == 0 || decide (Config.maxAttempts ≤ attempts)

/-- Whether this moment lies in the first half of a bit-time of a telegram that is sent since a moment (R46). -/
def inFirstHalf (since : OscTime) (s : State) : Bool := decide ((s.clock.osc - since) % bitPeriods s < halfPeriods s)

/-- Whether the station releases the line in the half-bit of its telegram in which this moment lies (R46, R59): the first half of a 1, the
second half of a 0. A telegram that has ended has no such half-bit. -/
def releasesNow (t : OutTelegram) (since : OscTime) (s : State) : Bool :=
  decide (s.clock.osc < sendingEnd s t since) &&
    match (telegramBitList (onTheLine (own s) t))[(s.clock.osc - since) / bitPeriods s]? with
    | some b => if inFirstHalf since s then !(halves b).1 else !(halves b).2
    | none => false

/-- The end of the half-bit in which this moment lies (R46). -/
def halfBitEnd (since : OscTime) (s : State) : OscTime :=
  since + (s.clock.osc - since) / bitPeriods s * bitPeriods s + (if inFirstHalf since s then halfPeriods s else bitPeriods s)

/-- An attempt stopped by a mismatch (R59, R60). Quiet is measured from the end of the half-bit that showed driven; what others drive after
it is told by LINE_BUSY (DESIGN CHOICE, unsafe, log entry 28). -/
def telegramStopped (k : TelegramClass) (t : OutTelegram) (attempts : Nat) (since : OscTime) (s : State) : State :=
  let s := quietSince (halfBitEnd since s) s
  let s := setCounters { s.line.counters with mismatches := count16 s.line.counters.mismatches } s
  let s := lineEvent s
  if discarded k attempts then
    let s := setCounters { s.line.counters with discards := count16 s.line.counters.discards } s
    reportFinished t false (setSlot k .vacant s)
  else setSlot k (.waiting t attempts) s

/-- MISMATCH (R59): it takes place in a half-bit that the station releases, and nowhere else. -/
def execMismatch (s : State) : Host.Outcome State Fault Refusal :=
  match sendingSlot s with
  | some (k, t, n, since) =>
    if releasesNow t since s then finish (telegramStopped k t n since s) else noEvent s
  | none => noEvent s

/-! ### The batch wait (R107) -/

/-- NEWS_BATCH_WAIT_END (R107). -/
def execNewsBatchWaitEnd (s : State) : Host.Outcome State Fault Refusal :=
  if batchWaited s && newsDue s then finish (newsLook s) else noEvent s

end Sys2Proof.Machine
end

