-- ==== Sys2Proof/Machine/Status.lean ====
section
/-! DEFINITION. The status pages (R194, R195) and their fields as each block's chapter lists them (R21, R44, R62, R82, R90, R102, R118,
R177), and the data of READ CHECK (R160), READ POINT (R140) and READ DIAL (R190). -/

namespace Sys2Proof.Machine

/-! ### Field encodings (R194) -/

/-- A line time: 7 bytes. -/
def timeField (t : LineTime) : List Byte := beBytes 7 t

/-- A date: 8 bytes. -/
def dateField (d : Date) : List Byte := beBytes 7 d.time ++ [byteOf d.cls.number]

/-- A state, mode, flag or small count: 1 byte. -/
def smallField (n : Nat) : List Byte := [byteOf n]

/-- A flag. -/
def flagField (b : Bool) : List Byte := [flagByte b]

/-- An offset, C or reference offset: 8 bytes, signed. -/
def offsetField (o : Int) : List Byte := beInt 8 o

/-- A field that may be none: all its bytes at their highest value (R194; which fields are so, and their widths where the rules name none:
DEDUCED, unsafe, log entry 18). -/
def optionField {α : Type} (n : Nat) (f : α → List Byte) : Option α → List Byte
  | none => beNone n
  | some x => f x

/-- A class (R65). -/
def classField (c : ClockClass) : List Byte := smallField c.number

/-- A level, by the codes of the record (R65; DEDUCED, unsafe, log entry 18). -/
def levelField (l : Level) : List Byte := smallField (levelNumber l)

/-! ### State numbers, in the order the rules list them (R194) -/

def portNumber : PortState → Nat
  | .notFitted => 0
  | .searching => 1
  | .valid => 2

def channelModeNumber : ChannelMode → Nat
  | .off => 0
  | .starting => 1
  | .normal => 2
  | .chattering => 3

def readModeNumber : ReadMode → Nat
  | .newsWait => 1
  | .collecting => 2
  | .ready => 3
  | .placed => 4

def senderNumber : Sender → Nat
  | .idle => 0
  | .formed _ => 1
  | .placed _ => 2

def conditionNumber : Condition → Nat
  | .neverHeard => 0
  | .known _ _ => 1
  | .uncertain => 2
  | .chattering => 3
  | .off => 4

def holdStateNumber : HoldState → Nat
  | .copying => 0
  | .filling => 1
  | .closed => 2

def dialStateNumber : DialState → Nat
  | .unset => 0
  | .noTime => 1
  | .idle => 2
  | .pulsing => 3
  | .catchingUp => 4
  | .holding => 5
  | .fault => 6

/-- 1 CONFIGURED, 2 UNCONFIGURED (R195). -/
def configNumber : ConfigState → Nat
  | .reading => 0
  | .configured => 1
  | .unconfigured => 2

/-- 0 none, 1 absent, 2 wrong version or length, 3 check failed (R195). -/
def unusableNumber : Unusable → Nat
  | .none => 0
  | .absent => 1
  | .versionOrLength => 2
  | .check => 3

/-! ### The pages -/

/-- Page 0 (R195). -/
def page0 (s : State) : List Byte :=
  beBytes 2 316 ++ smallField 2 ++ smallField (own s).val ++ smallField (causeCode s.query.cause) ++
    smallField (configNumber s.config.state) ++ smallField (unusableNumber s.config.reason) ++
    beBytes 2 s.config.check.toNat ++ beBytes 2 (liveMask s).toNat ++ beBytes 2 s.query.latched.toNat ++
    beBytes 2 s.query.enables.toNat ++ flagField (standingAlarm s)

/-- The remaining oscillator time of a fast slew in whole µs (R21). -/
def fastSlewLeft (c : Clock) : Option Nat :=
  c.fastSlewEnd.map fun t => (t - c.osc) / Config.periodsPerMicrosecond

/-- The clock unit's fields of page 1 (R21). -/
def clockFields (s : State) : List Byte :=
  timeField s.clock.lineTime ++ classField s.clock.cls ++ beInt 4 s.clock.trim ++ beInt 4 s.clock.slew ++
    flagField s.clock.fastSlewEnd.isSome ++ optionField 8 (beBytes 8) (fastSlewLeft s.clock) ++
    optionField 8 offsetField s.clock.lastC ++ smallField (portNumber s.port.state) ++ smallField s.port.count ++
    optionField 8 offsetField s.port.offset

/-- The latest member set's fields (R44). -/
def memberFields : Option MemberSummary → List Byte
  | none => beNone 3
  | some m => flagField m.noPeer ++ optionField 1 classField m.best ++ smallField m.count

/-- The agreement unit's fields of page 1 (R44). -/
def agreementFields (s : State) : List Byte :=
  smallField (agreementCode s.agree.state) ++ smallField s.agree.lockCount ++ smallField s.agree.disputeCount ++
    smallField s.agree.emptyCount ++ smallField s.settings.interval ++ smallField s.settings.delay ++
    smallField s.settings.thresholdMs ++ memberFields s.agree.lastSet ++ optionField 8 offsetField s.agree.lastMidpoint

/-- Page 1 (R21, R44). -/
def page1 (s : State) : List Byte := clockFields s ++ agreementFields s

/-- One station's fields of page 2 (R44, R118). -/
def stationFields (s : State) (i : Station) : List Byte :=
  let p := s.agree.peers[i]
  optionField 1 classField p.cls ++ optionField 8 offsetField p.offset ++ flagField p.heard ++ smallField p.streak ++
    flagField p.outlier ++ optionField 2 (fun x : BitVec 16 => beBytes 2 x.toNat) s.news.lastSequence[i] ++
    smallField s.news.silence[i] ++ flagField (s.news.silence[i] == 3)

/-- Page 2. -/
def page2 (s : State) : List Byte := (List.finRange 32).flatMap (stationFields s)

/-- The line counters (R62). -/
def lineFields (c : LineCounters) : List Byte :=
  beBytes 2 c.sent ++ beBytes 2 c.mismatches ++ beBytes 2 c.discards ++ beBytes 2 c.checkFailures ++
    beBytes 2 c.duplicates ++ beBytes 2 c.queriesDropped

/-- The journal's fields (R90). -/
def journalFields (j : Journal) : List Byte :=
  let shown := !j.records.isEmpty
  let number := optionField 4 (fun n : JournalNo => beBytes 4 n.toNat)
  number (if shown then some (newestNumber j) else none) ++ number (if shown then some (oldestNumber j) else none) ++
    beBytes 2 j.records.length

/-- A read's source: its type as HISTORY codes it, then its originator and mark number, none for JOURNAL. -/
def sourceFields : ReadSource → List Byte
  | .journal => smallField 0 ++ beNone 2
  | .hold o n => smallField 1 ++ smallField o.val ++ [n]

/-- The history reader's fields (R102). -/
def readerFields : Option Read → List Byte
  | none => smallField 0 ++ beNone 13
  | some rd =>
    smallField (readModeNumber rd.mode) ++ smallField rd.requester.val ++ [rd.tag] ++ sourceFields rd.source ++
      beBytes 4 rd.next.toNat ++ beBytes 2 rd.remaining ++ beBytes 2 rd.skipped

/-- The sequence of the sender's telegram. -/
def senderSequence : Sender → Option (BitVec 16)
  | .idle => none
  | .formed t => some t.sequence
  | .placed t => some t.sequence

/-- One watch table entry (R118). -/
def watchFields (w : WatchEntry) : List Byte :=
  smallField w.station.val ++ smallField w.input.val ++ beBytes 2 w.refs ++ smallField (conditionNumber w.condition) ++
    (match w.condition with
      | .known l d => levelField l ++ dateField d
      | _ => beNone 9)

/-- The news unit's fields of page 3 (R118). -/
def newsFields (s : State) : List Byte :=
  let n := s.news
  beBytes 2 n.counters.sent ++ beBytes 2 n.counters.discarded ++ beBytes 2 n.counters.refused ++
    beBytes 2 n.counters.gapsHeard ++ smallField n.gap ++ beBytes 2 n.nextSequence.toNat ++ smallField n.queue.length ++
    smallField s.settings.watermark ++ smallField (senderNumber n.sender) ++
    optionField 2 (fun x : BitVec 16 => beBytes 2 x.toNat) (senderSequence n.sender) ++
    optionField 4 (fun x : JournalNo => beBytes 4 x.toNat) n.flushTarget ++ s.watch.flatMap watchFields

/-- Page 3 (R62, R90, R102, R118). -/
def page3 (s : State) : List Byte :=
  lineFields s.line.counters ++ journalFields s.journal ++ readerFields s.reader ++ newsFields s

/-- A run's fields (R82). -/
def runFields : Option Run → List Byte
  | none => flagField false ++ beNone 9
  | some r => flagField true ++ levelField r.level ++ dateField r.first

/-- One channel's fields of page 4 (R82). -/
def channelFields (c : Channel) : List Byte :=
  flagField c.defn.enabled ++ flagField c.defn.inverted ++ flagField c.defn.pulse ++ smallField c.defn.filterMs ++
    smallField (channelModeNumber c.mode) ++ optionField 1 levelField c.reading ++ optionField 1 levelField c.accepted ++
    runFields c.run ++ optionField 8 dateField c.lastChange ++
    optionField 1 smallField (if c.mode = .normal then some c.chatterCount else none) ++
    optionField 1 smallField (if c.mode = .chattering then some c.quietCount else none)

/-- Page 4 (R82). -/
def page4 (s : State) : List Byte :=
  s.input.channels.toList.flatMap channelFields ++ smallField s.settings.chatterLimit

/-- One hold's fields of page 5 (R177). -/
def holdFields (h : Hold) : List Byte :=
  smallField h.mark.originator.val ++ [h.mark.number, h.mark.reason, h.mark.subject] ++ timeField h.mark.time ++
    beBytes 2 h.mark.pre ++ beBytes 2 h.mark.post ++ timeField h.start ++ timeField h.stop ++ classField h.cls ++
    smallField (holdStateNumber h.state) ++ flagField h.truncated ++ flagField h.isPartial ++ flagField h.closeDue ++
    flagField h.inUse ++ beBytes 2 h.records.length ++ optionField 4 (fun n : JournalNo => beBytes 4 n.toNat) h.walk

/-- Page 5 (R177). -/
def page5 (s : State) : List Byte :=
  [s.marks.own] ++ smallField s.marks.outgoing.length ++ beBytes 2 s.marks.notSent ++ smallField s.marks.holds.length ++
    beBytes 2 (storeCount s.marks.holds) ++ s.marks.holds.flatMap holdFields

/-- The fields of a page, none for a page above 5 (R194). -/
def pageFields (page : Nat) (s : State) : Option (List Byte) :=
  match page with
  | 0 => some (page0 s)
  | 1 => some (page1 s)
  | 2 => some (page2 s)
  | 3 => some (page3 s)
  | 4 => some (page4 s)
  | 5 => some (page5 s)
  | _ => none

/-- The header byte of a part (R194). -/
def partHeader (page part : Nat) (last : Bool) : Byte := byteOf (page + last.toNat * 8 + part * 16)

/-- A page cut into parts of up to 156 bytes, each behind its header byte (R194). -/
def partsOf (page : Nat) : Nat → Nat → List Byte → List (List Byte)
  | 0, part, bytes => [partHeader page part true :: bytes]
  | n + 1, part, bytes =>
    if bytes.length ≤ 156 then [partHeader page part true :: bytes]
    else (partHeader page part false :: bytes.take 156) :: partsOf page n (part + 1) (bytes.drop 156)

/-! ### Answers that report one thing -/

/-- The number of a check entry's state (R160). -/
def checkStateNumber : CheckPhase → Nat
  | .waiting => 1
  | .opened => 2
  | .matched => 3
  | .done => 4

/-- The code of an edge (R65). -/
def edgeNumber : Edge → Nat
  | .toActive => 0
  | .toInactive => 1
  | .any => 2

/-- The code of a side (R65). -/
def sideNumber : Side → Nat
  | .normal => 0
  | .reverse => 1

/-- A subject as POST CHECK codes it; the station of a POINT subject is not stated, and is a free value (DESIGN CHOICE, safe, log entry 16). -/
def subjectFields (free : Nat) : Subject → List Byte
  | .input st i e => smallField 0 ++ smallField st.val ++ smallField i.val ++ smallField (edgeNumber e)
  | .point p t => smallField 1 ++ smallField free ++ smallField p.val ++ smallField (sideNumber t)

/-- The flags byte of READ CHECK (R160). -/
def checkFlags (c : CheckEntry) : Nat :=
  c.markOnMiss.toNat + c.doubt.toNat * 2 + c.view.doubtful.toNat * 4 +
    (match c.last with
      | some l => l.uncertain.toNat
      | none => 0) * 8

/-- The data of READ CHECK (R160). -/
def checkFields (free : Nat) (c : CheckEntry) : List Byte :=
  smallField (checkStateNumber c.phase) ++ subjectFields free c.subject ++ timeField c.due ++ timeField c.openAt ++
    timeField c.closeAt ++ beBytes 2 c.earlyTolerance ++ beBytes 2 c.lateTolerance ++ beBytes 3 c.period ++
    smallField c.repeatsLeft ++ smallField (checkFlags c) ++
    (match c.held with
      | some d => dateField d
      | none => List.replicate 8 0) ++
    (match c.last with
      | some l => smallField (checkCode l.outcome) ++ beInt 4 l.tenths
      | none => smallField 255 ++ beInt 4 0)

/-- The data of READ DIAL (R190). -/
def dialFields (d : Dial) (osc : OscTime) : List Byte :=
  flagField d.defn.enabled ++ smallField d.defn.step ++ smallField (dialStateNumber d.state) ++
    beBytes 2 (d.position.getD 65535) ++ flagField d.negative ++
    beBytes 2 (if d.position.isSome then d.target.getD 65535 else 65535) ++
    beBytes 2 (match d.target, d.position with
      | some t, some p => behind d.defn t p
      | _, _ => 0) ++
    smallField d.failed ++ flagField (d.state == .pulsing && d.test) ++ beBytes 2 d.defn.widthMs ++
    beBytes 2 d.defn.spacingMs ++ beBytes 4 ((d.wait.getD osc - osc) / Config.periodsPerMillisecond)

/-- The direction byte of READ POINT (R140). -/
def directionNumber : PointState → Nat
  | .called .normal _ _ => 1
  | .called .reverse _ _ => 2
  | .moving .normal _ _ _ => 1
  | .moving .reverse _ _ _ => 2
  | .overtime .normal _ _ => 1
  | .overtime .reverse _ _ => 2
  | _ => 0

/-- The call date held, 0 when none (R140). -/
def callTime : PointState → LineTime
  | .called _ c _ => c.time
  | .moving _ c _ _ => c.time
  | .overtime _ c _ => c.time
  | _ => 0

/-- The loss date held, 0 when none (R140). -/
def lossTime : PointState → LineTime
  | .moving _ _ l _ => l.time
  | .overtime _ _ l => l.time
  | _ => 0

/-- One reference's fields of READ POINT (R140); the level of a view that is not KNOWN is a free value. -/
def viewFields (free : Nat) (ref : Station × InputNo) (c : Condition) : List Byte :=
  smallField ref.1.val ++ smallField ref.2.val ++ smallField (conditionNumber c) ++
    (match c with
      | .known l d => levelField l ++ dateField d
      | _ => smallField free ++ List.replicate 8 0)

/-- A trend's fields (R140). -/
def trendFields (t : Trend) : List Byte := beBytes 4 (t.value.getD 0) ++ smallField t.count

/-- The data of READ POINT (R140). `free` gives the fields whose content no rule states (DESIGN CHOICE, safe, log entry 16). -/
def pointFields (free : UnstatedField → Nat → Nat) (d : PointDef) (p : Point) : List Byte :=
  smallField (pointStateNumber p.state) ++ smallField (directionNumber p.state) ++
    smallField (p.startFailed.toNat + p.alarm.toNat * 2 + p.serviceDue.toNat * 4 + d.markOnFailure.toNat * 8) ++
    viewFields (free .viewLevel 0) d.refs.normalCall p.views.normalCall ++
    viewFields (free .viewLevel 1) d.refs.reverseCall p.views.reverseCall ++
    viewFields (free .viewLevel 2) d.refs.normalDetection p.views.normalDetection ++
    viewFields (free .viewLevel 3) d.refs.reverseDetection p.views.reverseDetection ++
    timeField (callTime p.state) ++ timeField (lossTime p.state) ++
    (match p.lastOutcome with
      | some (o, date) => smallField (pointCode o) ++ timeField date.time
      | none => smallField 255 ++ timeField (free .outcomeDate 0)) ++
    beBytes 4 (p.lastStroke.getD (free .lastStroke 0)) ++ beBytes 4 (p.lastOperate.getD (free .lastOperate 0)) ++
    trendFields p.trendReverse ++ trendFields p.trendNormal ++ beBytes 3 p.service ++ beBytes 3 d.interval ++
    beBytes 2 d.startMs ++ beBytes 2 d.strokeMs

end Sys2Proof.Machine
end

