-- ==== Sys2Proof/Machine/Queries.lean ====
section
/-! DEFINITION. The query and status unit (R192–R194): taking a query, and the fourteen queries and UNKNOWN_QUERY with their cases as
the owners' chapters give them. -/

namespace Sys2Proof.Machine

/-! ### Taking a query (R192, R193) -/

/-- What an owner answers: a result code and the data of the answer's parts. -/
structure Reply where
  result : Result
  parts : List (List Byte)
  forRead : Bool
  forRestart : Bool
  deriving DecidableEq, Repr

/-- An answer with no data. -/
def bare (r : Result) : Reply := { result := r, parts := [[]], forRead := false, forRestart := false }

/-- An answer of one telegram with data. -/
def withData (r : Result) (data : List Byte) : Reply := { bare r with parts := [data] }

/-- An answer joins the queue, and is offered to the arbiter (R193). -/
def joinAnswer (source : Station) (tag kind : Byte) (r : Reply) (s : State) : State :=
  let a : Answer :=
    { dest := source, tag := tag, kind := kind, result := r.result, parts := r.parts, forRead := r.forRead
      forRestart := r.forRestart }
  arbitrate (s.setQuery { s.query with answers := s.query.answers ++ [a] })

/-- Steps 1 and the last of R192: a query is dropped while a restart is pending, or, counted, by a full answer queue; otherwise
what `apply` answers joins the queue, after the owner's own effects (DEDUCED, unsafe, log entry 15). -/
def answerQuery (source : Station) (tag kind : Byte) (apply : State → State × Reply) (s : State) : State :=
  if s.query.restartPending then s
  else if Config.answerQueueSize ≤ s.query.answers.length then
    setCounters { s.line.counters with queriesDropped := count16 s.line.counters.queriesDropped } s
  else
    let (s, r) := apply s
    joinAnswer source tag kind r s

/-- Steps 3 to 5 of R192 for a known kind: its argument length, NOT_READY where it needs a record, and its owner. -/
def apply (length : Nat) (needsRecord : Bool) (args : List Byte) (owner : State → State × Reply) (s : State) :
    State × Reply :=
  if args.length ≠ length then (s, bare .badValue)
  else if needsRecord && s.config.state == .unconfigured then (s, bare .notReady)
  else owner s

/-- A query received from a source (R192). -/
def query (code length : Nat) (needsRecord : Bool) (source : Station) (tag : Byte) (args : List Byte)
    (owner : State → State × Reply) (s : State) : Host.Outcome State Fault Refusal :=
  receive (queryTelegram (own s) source tag (byteOf code) args) source
    (fun _ s => answerQuery source tag (byteOf code) (apply length needsRecord args owner) s) s

/-- UNKNOWN_QUERY (R192): answered with no data, the kind copied. -/
def execUnknownQuery (source : Station) (tag kind : Byte) (args : List Byte) (s : State) :
    Host.Outcome State Fault Refusal :=
  receive (queryTelegram (own s) source tag kind args) source (fun _ s => answerQuery source tag kind (fun s => (s, bare .unknownQuery)) s) s

/-! ### POST CHECK, WITHDRAW CHECK, READ CHECK (R146–R149, R159, R160) -/

/-- The remote pair that a subject needs a watch reference on (R144). -/
def remotePair (s : State) : Subject → Option (Station × InputNo)
  | .input st i _ => if st = own s then none else some (st, i)
  | .point _ _ => none

/-- A subject that POST CHECK refuses: an undefined point, or a local input whose enable is off (R147). -/
def subjectRefused (s : State) : Subject → Bool
  | .input st i _ => st == own s && !s.input.channels[i].defn.enabled
  | .point p _ => s.points[p].defn.isNone

/-- The subject view at posting (R149). -/
def startingView (s : State) : Subject → SubjectView
  | .input st i _ => viewOfCondition (conditionOf s st i)
  | .point p _ => if s.points[p].state = .unknown then .unknown else .known

/-- k: the periods a repeating entry is advanced (R148). -/
def advance (p : Posting) (settle : Nat) (t : LineTime) : Nat :=
  let last := p.closeAt + settle * 1000000
  if p.period = 0 ∨ t ≤ last then 0 else (t - last + p.period * 1000000 - 1) / (p.period * 1000000)

/-- The entry that an OK posting makes, WAITING with its opening deadline (R149). -/
def postedEntry (p : Posting) (subject : Subject) (k : Nat) (settle : Nat) (view : SubjectView) : CheckEntry :=
  let shift := k * (p.period * 1000000)
  { phase := .waiting, subject := subject, due := p.due + shift, openAt := p.openAt + shift, closeAt := p.closeAt + shift
    watchBefore := p.watchBefore, watchAfter := p.watchAfter, earlyTolerance := p.earlyTolerance
    lateTolerance := p.lateTolerance, period := p.period, repeatsLeft := p.repeats, settle := settle
    markOnMiss := p.markOnMiss, view := view, doubt := false, held := none, deadline := some (p.openAt + shift)
    last := none }

/-- The last case of R147: the reference is taken, the entry is made, and deadlines already reached fall due (R149). -/
def post (p : Posting) (subject : Subject) (s : State) : State × Reply :=
  let k := advance p s.settings.settle s.clock.lineTime
  let s := match remotePair s subject with
    | some (st, i) => s.setWatch (addReference st i s.watch)
    | none => s
  let c := postedEntry p subject k s.settings.settle (startingView s subject)
  (settleEntry p.entry (setEntry p.entry (some c) s), withData .ok (beBytes 2 (min 65535 k)))

/-- Whether an entry is in use: WAITING, OPEN or MATCHED (R147). -/
def inUse (s : State) (e : EntryNo) : Bool :=
  match s.checks[e] with
  | some c => c.active
  | none => false

/-- POST CHECK's cases after NOT_READY, in order (R147). -/
def postCases (p : Posting) (s : State) : State × Reply :=
  if inUse s p.entry then (s, bare .inUse)
  else
    match p.subject with
    | none => (s, bare .badValue)
    | some subject =>
      if subjectRefused s subject || decide (86399 < p.dueSecond) then (s, bare .badValue)
      else if s.clock.cls = .unset then (s, bare .noTime)
      else if p.period = 0 ∧ p.closeAt + s.settings.settle * 1000000 < s.clock.lineTime then (s, bare .past)
      else
        match remotePair s subject with
        | some (st, i) => if referenceFits st i s.watch then post p subject s else (s, bare .watchFull)
        | none => post p subject s

/-- POST_CHECK (R147). -/
def execPostCheck (source : Station) (tag : Byte) (args : List Byte) (s : State) : Host.Outcome State Fault Refusal :=
  query 1 23 true source tag args (postCases (postingOf args)) s

/-- WITHDRAW CHECK's cases (R159). -/
def withdraw (e : EntryNo) (s : State) : State × Reply :=
  match s.checks[e] with
  | none => (s, bare .isEmpty)
  | some c => (setEntry e none (if c.active then giveBack c s else s), bare .ok)

/-- WITHDRAW_CHECK (R159). -/
def execWithdrawCheck (source : Station) (tag : Byte) (args : List Byte) (s : State) : Host.Outcome State Fault Refusal :=
  query 2 1 false source tag args (withdraw (entryOfByte (byteAt args 0))) s

/-- The counter of free values moved on past those an answer may have used. -/
def spend (n : Nat) (s : State) : State := s.setChoices (s.choices + n)

/-- READ CHECK's cases (R160). -/
def readEntry (e : EntryNo) (s : State) : State × Reply :=
  match s.checks[e] with
  | none => (s, bare .isEmpty)
  | some c => (spend 1 s, withData .ok (checkFields (Config.unstatedAnswer .checkStation s.choices) c))

/-- READ_CHECK (R160). -/
def execReadCheck (source : Station) (tag : Byte) (args : List Byte) (s : State) : Host.Outcome State Fault Refusal :=
  query 3 1 false source tag args (readEntry (entryOfByte (byteAt args 0))) s

/-! ### HISTORY and HISTORY CANCEL (R92, R100) -/

/-- The source that the arguments name; none for a source field other than 0 or 1 (R92). An originator above 31 names no hold. -/
def namedSource (args : List Byte) : Option (Option ReadSource) :=
  match (byteAt args 0).toNat with
  | 0 => some (some .journal)
  | 1 => some ((stationOfByte (byteAt args 1)).map fun o => .hold o (byteAt args 2))
  | _ => none

/-- Whether a source exists (R92). -/
def sourceExists (s : State) : ReadSource → Bool
  | .journal => true
  | .hold o n => (holdIndex s o n).isSome

/-- The ACCEPTED answer's data: the count and the first and last journal number in scope (R92). -/
def scopeFields (scope : List Record) : List Byte :=
  beBytes 2 scope.length ++ beBytes 4 ((scope.head?.map fun r => r.number.toNat).getD 0) ++
    beBytes 4 ((scope.getLast?.map fun r => r.number.toNat).getD 0)

/-- HISTORY's cases (R92). -/
def historyCases (source : Station) (tag : Byte) (args : List Byte) (s : State) : State × Reply :=
  let fromDate := numberAt args 3 7
  let toDate := numberAt args 10 7
  match namedSource args with
  | none => (s, bare .badValue)
  | some named =>
    if toDate < fromDate then (s, bare .badValue)
    else if s.reader.isSome then (s, bare .busy)
    else
      match named with
      | none => (s, bare .noSuch)
      | some src =>
        if sourceExists s src then
          (acceptRead source tag src fromDate toDate (BitVec.ofNat 16 (numberAt args 17 2)) s,
            { withData .accepted (scopeFields (scopeOf s src)) with forRead := true })
        else (s, bare .noSuch)

/-- HISTORY (R92). -/
def execHistory (source : Station) (tag : Byte) (args : List Byte) (s : State) : Host.Outcome State Fault Refusal :=
  query 4 19 false source tag args (historyCases source tag args) s

/-- Answers waiting for a read that has ended report to none (R94, R100). -/
def forgetAccepted (s : State) : State :=
  s.setQuery { s.query with answers := s.query.answers.map fun a => { a with forRead := false } }

/-- HISTORY CANCEL's cases (R100). -/
def cancelCases (source : Station) (s : State) : State × Reply :=
  match s.reader with
  | none => (s, bare .noSuch)
  | some rd =>
    if rd.requester = source then (forgetAccepted (endRead rd s), bare .ok) else (s, bare .notYours)

/-- HISTORY_CANCEL (R100). -/
def execHistoryCancel (source : Station) (tag : Byte) (args : List Byte) (s : State) : Host.Outcome State Fault Refusal :=
  query 5 0 false source tag args (cancelCases source) s

/-! ### RAISE MARK and RELEASE HOLD (R175, R176) -/

/-- RAISE MARK (R175): the number taken, with OK where the mark was held and HOLD_FULL where the table was full. The table's room decides
also where the identity was held already and no hold is made (DEDUCED, unsafe, log entry 21). -/
def raiseCases (args : List Byte) (s : State) : State × Reply :=
  let held := decide (s.marks.holds.length < Config.holdTableSize)
  (raiseMark reasonManual (byteAt args 0) (numberAt args 1 7) (clamp 0 600 (numberAt args 8 2))
      (clamp 0 600 (numberAt args 10 2)) s,
    withData (if held then .ok else .holdFull) [s.marks.own])

/-- RAISE_MARK (R175). -/
def execRaiseMark (source : Station) (tag : Byte) (args : List Byte) (s : State) : Host.Outcome State Fault Refusal :=
  query 6 12 true source tag args (raiseCases args) s

/-- RELEASE HOLD's cases (R176). -/
def releaseCases (args : List Byte) (s : State) : State × Reply :=
  match (stationOfByte (byteAt args 0)).bind fun o => holdIndex s o (byteAt args 1) with
  | none => (s, bare .noSuch)
  | some i =>
    match s.marks.holds[i]? with
    | none => (s, bare .noSuch)
    | some h =>
      if h.inUse then (s, bare .busy)
      else (releaseHold i h s, withData .ok (beBytes 2 h.records.length))

/-- RELEASE_HOLD (R176). -/
def execReleaseHold (source : Station) (tag : Byte) (args : List Byte) (s : State) : Host.Outcome State Fault Refusal :=
  query 7 2 false source tag args (releaseCases args) s

/-! ### SET DIAL and READ DIAL (R189, R190) -/

/-- A line's state as SET DIAL sets it, before its evaluation (R189). -/
def Dial.putAt (d : Dial) (position : Nat) (negative : Bool) (t : Date) : Dial :=
  Dial.retarget
    { d with
      position := some position, positionStep := d.defn.step, negative := negative, failed := 0, wait := none
      test := false } t

/-- The OK case of SET DIAL: the dial is set, DIAL SET written, and the line evaluated (R189). -/
def putDial (l : DialNo) (position : Nat) (negative : Bool) (s : State) : State :=
  let d := s.dials[l].putAt position negative (now s)
  let s := setDialState l d s
  let s := writeRecord (dialDraft 0 l position s) s
  setDialState l (d.evaluate s.clock.osc) s

/-- SET DIAL's cases after NOT_READY (R189). -/
def setDialCases (args : List Byte) (s : State) : State × Reply :=
  match dialOfByte (byteAt args 0) with
  | none => (s, bare .badValue)
  | some l =>
    let d := s.dials[l]
    let position := numberAt args 1 2
    if !d.defn.enabled then (s, bare .noSuch)
    else if d.state = .pulsing then (s, bare .busy)
    else if faceSize d.defn ≤ position ∨ 1 < (byteAt args 3).toNat then (s, bare .badValue)
    else (putDial l position (byteAt args 3 == 1) s, bare .ok)

/-- SET_DIAL (R189). -/
def execSetDial (source : Station) (tag : Byte) (args : List Byte) (s : State) : Host.Outcome State Fault Refusal :=
  query 8 4 true source tag args (setDialCases args) s

/-- READ DIAL's cases (R190). -/
def readDialCases (args : List Byte) (s : State) : State × Reply :=
  match dialOfByte (byteAt args 0) with
  | none => (s, bare .badValue)
  | some l => (s, withData .ok (dialFields s.dials[l] s.clock.osc))

/-- READ_DIAL (R190). -/
def execReadDial (source : Station) (tag : Byte) (args : List Byte) (s : State) : Host.Outcome State Fault Refusal :=
  query 9 1 false source tag args (readDialCases args) s

/-! ### SERVICE RESET and READ POINT (R140, R141) -/

/-- SERVICE RESET's cases after NOT_READY (R141). -/
def resetCases (args : List Byte) (s : State) : State × Reply :=
  match pointOfByte (byteAt args 0) with
  | none => (s, bare .badValue)
  | some p =>
    match s.points[p].defn with
    | none => (s, bare .noSuch)
    | some d =>
      (setPoint p { s.points[p] with service := preload d.interval, serviceDue := false } s,
        withData .ok (beBytes 3 (preload d.interval)))

/-- SERVICE_RESET (R141). -/
def execServiceReset (source : Station) (tag : Byte) (args : List Byte) (s : State) : Host.Outcome State Fault Refusal :=
  query 10 1 true source tag args (resetCases args) s

/-- READ POINT's cases (R140). -/
def readPointCases (args : List Byte) (s : State) : State × Reply :=
  match pointOfByte (byteAt args 0) with
  | none => (s, bare .badValue)
  | some p =>
    match s.points[p].defn with
    | none => (s, bare .noSuch)
    | some d =>
      (spend 4 s, withData .ok (pointFields (fun f i => Config.unstatedAnswer f (s.choices + i)) d s.points[p]))

/-- READ_POINT (R140). -/
def execReadPoint (source : Station) (tag : Byte) (args : List Byte) (s : State) : Host.Outcome State Fault Refusal :=
  query 11 1 false source tag args (readPointCases args) s

/-! ### READ STATUS, CLEAR ALARMS, RESTART (R194, R197, R203) -/

/-- READ STATUS's cases (R194). -/
def statusCases (args : List Byte) (s : State) : State × Reply :=
  match pageFields (byteAt args 0).toNat s with
  | none => (s, bare .badValue)
  | some bytes => (s, { bare .ok with parts := partsOf (byteAt args 0).toNat 15 0 bytes })

/-- READ_STATUS (R194). -/
def execReadStatus (source : Station) (tag : Byte) (args : List Byte) (s : State) : Host.Outcome State Fault Refusal :=
  query 12 1 false source tag args (statusCases args) s

/-- The latched mask after a clearing: named bits go unless their sources are live (R197). -/
def cleared (latched live mask : BitVec 11) : BitVec 11 := (latched &&& ~~~mask) ||| live

/-- CLEAR ALARMS (R197): the answer carries the latched mask after the clearing. -/
def clearCases (args : List Byte) (s : State) : State × Reply :=
  let latched := cleared s.query.latched (liveMask s) (BitVec.ofNat 11 (numberAt args 0 2))
  (s.setQuery { s.query with latched := latched }, withData .ok (beBytes 2 latched.toNat))

/-- CLEAR_ALARMS (R197). -/
def execClearAlarms (source : Station) (tag : Byte) (args : List Byte) (s : State) : Host.Outcome State Fault Refusal :=
  query 13 2 false source tag args (clearCases args) s

/-- RESTART (R203): the restart becomes pending, and its answer will take it into effect. -/
def restartCases (s : State) : State × Reply :=
  (s.setQuery { s.query with restartPending := true }, { bare .ok with forRestart := true })

/-- RESTART (R203). -/
def execRestart (source : Station) (tag : Byte) (args : List Byte) (s : State) : Host.Outcome State Fault Refusal :=
  query 14 0 false source tag args restartCases s

end Sys2Proof.Machine
end

