-- ==== Sys2Proof/Machine/Tick.lean ====
section
/-! DEFINITION. What the part does of itself while no command waits: the events of this moment, the visits of its walks, or one period
of the oscillator. The table has no row for a tick, so this is what a step does on an empty queue (DESIGN CHOICE, log entry 1). -/

namespace Sys2Proof.Machine

/-! ### One oscillator period -/

/-- The four items of a beacon, read at the end of its start sequence (R24, R58), that is 8 bit-times after its start (DEDUCED, unsafe,
log entry 7). -/
def readBeacon (s : State) : State :=
  match s.line.slots[(0 : TelegramClass)] with
  | .sending t n since =>
    match t.payload with
    | .beacon none =>
      if since + 8 * bitPeriods s ≤ s.clock.osc then
        let items : BeaconItems :=
          { cls := s.clock.cls, state := s.agree.state, alarm := standingAlarm s, transmit := s.clock.lineTime }
        setSlot 0 (.sending { t with payload := .beacon (some items) } n since) s
      else s
    | _ => s
  | _ => s

/-- One period of the station oscillator: line time counts (R3), and a beacon that leaves is filled in (R24), before any event that is due at
the same moment (DESIGN CHOICE, unsafe, log entry 7). -/
def period (s : State) : State := readBeacon (s.setClock s.clock.count)

/-! ### The events of this moment -/

/-- A command, where its condition holds. -/
def dueIf (c : Bool) (i : Instr) : List Instr := if c then [i] else []

/-- Events of the pins, the reference port and the configuration read (R13, R14, R16, R68, R199, R202). -/
def startDue (s : State) : List Instr :=
  dueIf (decide (s.input.nextSample ≤ s.clock.osc))
      (.sample s.pins.contacts s.pins.reference s.pins.restart s.pins.sense) ++
    dueIf s.pins.restartEdge .restartPin ++
    (match s.config.phase with
      | .awaited => dueIf (s.pins.sampled && !s.pins.restart) (.configReadBegin s.pins.straps)
      | .attempt => []
      | .retryAt t => dueIf (decide (t ≤ s.clock.osc)) .configAttemptRetry
      | .failed => [.configReadEnd []]
      | .over => []) ++
    (match s.port.complete with
      | some l => dueIf (s.port.state != .notFitted) (.referenceMessage l.day l.second)
      | none => []) ++
    dueIf (s.port.pulseSeen && s.port.state != .notFitted) .referencePulse ++
    dueIf (lossReached s && s.port.state != .notFitted) .referenceLossTimeout

/-- The acceptance of the lowest channel that awaits one, unless a lower one settles first, and the end of a chatter second (R70, R75, R76,
R78; DEDUCED, log entry 9). -/
def inputDue (s : State) : List Instr :=
  (match (List.finRange 64).find? fun i => s.input.channels[i].awaits && !lowerFirst i s with
    | some i => [if s.input.channels[i].mode = .starting then .startRunAcceptance i else .acceptance i]
    | none => []) ++
    dueIf (secondEnded s) .chatterSecondEnd

/-- Events of the clock unit, the agreement unit, the line controller, its contention slots apart, and the news unit (R7, R22, R23, R47, R57,
R58, R107). -/
def lineDue (s : State) : List Instr :=
  dueIf (intervalReached s) .intervalEnd ++
    (match s.clock.fastSlewEnd with
      | some t => dueIf (decide (t ≤ s.clock.osc)) .fastSlewEnd
      | none => []) ++
    (match s.agree.phase with
      | some p => dueIf (decide (p ≤ s.clock.lineTime)) .beaconPhase
      | none => []) ++
    dueIf (quietEnough s) .lineFree ++
    dueIf (s.line.fairness && roundOver s) .fairnessRoundEnd ++
    (match sendingSlot s with
      | some (_, t, _, since) => dueIf (decide (sendingEnd s t since ≤ s.clock.osc)) .telegramSent
      | none => []) ++
    dueIf (batchWaited s && newsDue s) .newsBatchWaitEnd

/-- A point's deadline (R128, R130). -/
def pointDue (s : State) (p : PointNo) : List Instr :=
  match s.points[p].state with
  | .called _ _ d => dueIf (decide (d ≤ s.clock.lineTime)) (.startDeadline p)
  | .moving _ _ _ d => dueIf (decide (d ≤ s.clock.lineTime)) (.strokeDeadline p)
  | _ => []

/-- A check entry's deadline (R151, R153). -/
def entryDue (s : State) (e : EntryNo) : List Instr :=
  match s.checks[e] with
  | none => []
  | some c =>
    if c.reached s.clock.lineTime then
      match c.phase with
      | .waiting => [.checkOpening e]
      | .opened => [.checkDecision e]
      | .matched => [.checkDecision e]
      | .done => []
    else []

/-- An impulse line's timings (R181, R182, R185, R186). -/
def dialDue (s : State) (l : DialNo) : List Instr :=
  let d := s.dials[l]
  dueIf (d.targetReached s.clock.lineTime) (.targetChange l) ++
    dueIf (d.pulseOver s.clock.osc) (if d.test then .testPulseEnd l else .pulseEnd l) ++
    dueIf (d.state == .catchingUp && d.waitOver s.clock.osc) (.spacingWaitEnd l) ++
    dueIf (d.state == .fault && d.waitOver s.clock.osc) (.testWaitEnd l)

/-- The contention slot that begins at this moment, where it finds an eligible telegram. A telegram that becomes WAITING exactly at the
beginning of a slot is considered at it, so the slot comes after every other event of the moment (R55). -/
def slotDue (s : State) : List Instr :=
  ((List.finRange 4).filter fun p => slotBegins p s && (eligibleClass s p).isSome).map .contentionSlot

/-- The events of this moment but for its contention slot. Before POWER_ON there is none but POWER_ON itself. -/
def due (s : State) : List Instr :=
  if s.journal.records.isEmpty then [.powerOn]
  else
    startDue s ++ inputDue s ++ lineDue s ++
      (s.marks.holds.filter fun h => h.deadlineReached s.clock.lineTime).map
        (fun h => .holdCloseDeadline h.mark.originator h.mark.number) ++
      (List.finRange 32).flatMap (pointDue s) ++ (List.finRange 256).flatMap (entryDue s) ++
      (List.finRange 4).flatMap (dialDue s)

/-- A telegram of the station's own has started at this very moment. -/
def justStarted (s : State) : Bool :=
  match sendingSlot s with
  | some (_, _, _, since) => since == s.clock.osc
  | none => false

/-- The visits that the walks under way may make (R95, R168). None comes at the moment of a contention slot once a telegram has started in
it, since what a visit makes WAITING at that moment is considered at the slot (R55). -/
def visits (s : State) : List Instr :=
  if justStarted s then []
  else
    (match s.reader with
      | some rd => dueIf (rd.mode == .collecting && decide (0 < rd.remaining)) .historyVisit
      | none => []) ++
      (s.marks.holds.filter fun h => h.state == .copying).map fun h => .holdWalkVisit h.mark.originator h.mark.number

/-- One of several commands in a free order, made the command that waits. -/
def pick (l : List Instr) (s : State) : State :=
  match l with
  | [] => s
  | [c] => s.setPending [c]
  | _ =>
    match l[Config.tie s.choices % l.length]? with
    | some c => (s.setChoices (s.choices + 1)).setPending [c]
    | none => s

/-- The moment ends: its contention slot comes, and where there is none, or it has been taken, one oscillator period passes. -/
def moveOn (s : State) : State :=
  match slotDue s with
  | [] => period s
  | l => pick l s

/-- A step on an empty queue: an event of this moment becomes the waiting command; where there is none, a visit does, or the moment ends.
How many periods a visit takes is left open (R95, R168), and is a free value (DESIGN CHOICE, safe, log entry 3). -/
def idle (s : State) : State :=
  match due s with
  | [] =>
    match visits s with
    | [] => moveOn s
    | vs =>
      if Config.tie s.choices % 2 = 0 then moveOn (s.setChoices (s.choices + 1))
      else pick vs (s.setChoices (s.choices + 1))
  | l => pick l s

end Sys2Proof.Machine
end

