-- ==== Sys2Proof/Machine/Dispatch.lean ====
section
/-! DEFINITION. The dispatch: one arm for each command, in the table's order. -/

namespace Sys2Proof.Machine

def exec (i : Instr) (s : State) : Host.Outcome State Fault Refusal :=
  match i with
  | .powerOn => Sys2Proof.Machine.execPowerOn s
  | .restartPin => Sys2Proof.Machine.execRestartPin s
  | .configReadBegin straps => Sys2Proof.Machine.execConfigReadBegin straps s
  | .configAttemptRetry => Sys2Proof.Machine.execConfigAttemptRetry s
  | .configReadEnd bytes => Sys2Proof.Machine.execConfigReadEnd bytes s
  | .sample contacts reference restart sense => Sys2Proof.Machine.execSample contacts reference restart sense s
  | .acceptance input => Sys2Proof.Machine.execAcceptance input s
  | .startRunAcceptance input => Sys2Proof.Machine.execStartRunAcceptance input s
  | .chatterSecondEnd => Sys2Proof.Machine.execChatterSecondEnd s
  | .referenceMessage day second => Sys2Proof.Machine.execReferenceMessage day second s
  | .referencePulse => Sys2Proof.Machine.execReferencePulse s
  | .referenceLossTimeout => Sys2Proof.Machine.execReferenceLossTimeout s
  | .intervalEnd => Sys2Proof.Machine.execIntervalEnd s
  | .fastSlewEnd => Sys2Proof.Machine.execFastSlewEnd s
  | .beaconPhase => Sys2Proof.Machine.execBeaconPhase s
  | .lineFree => Sys2Proof.Machine.execLineFree s
  | .contentionSlot cls => Sys2Proof.Machine.execContentionSlot cls s
  | .fairnessRoundEnd => Sys2Proof.Machine.execFairnessRoundEnd s
  | .startSequenceHeard => Sys2Proof.Machine.execStartSequenceHeard s
  | .mismatch => Sys2Proof.Machine.execMismatch s
  | .telegramSent => Sys2Proof.Machine.execTelegramSent s
  | .telegramDropped seen => Sys2Proof.Machine.execTelegramDropped seen s
  | .duplicateStationTelegram telegram => Sys2Proof.Machine.execDuplicateStationTelegram telegram s
  | .telegramIgnored telegram => Sys2Proof.Machine.execTelegramIgnored telegram s
  | .beacon source cls stateCode alarm transmit => Sys2Proof.Machine.execBeacon source cls stateCode alarm transmit s
  | .mark source number reason subject time pre post => Sys2Proof.Machine.execMark source number reason subject time pre post s
  | .news source sequence gap records => Sys2Proof.Machine.execNews source sequence gap records s
  | .unknownQuery source tag kind args => Sys2Proof.Machine.execUnknownQuery source tag kind args s
  | .postCheck source tag args => Sys2Proof.Machine.execPostCheck source tag args s
  | .withdrawCheck source tag args => Sys2Proof.Machine.execWithdrawCheck source tag args s
  | .readCheck source tag args => Sys2Proof.Machine.execReadCheck source tag args s
  | .history source tag args => Sys2Proof.Machine.execHistory source tag args s
  | .historyCancel source tag args => Sys2Proof.Machine.execHistoryCancel source tag args s
  | .raiseMark source tag args => Sys2Proof.Machine.execRaiseMark source tag args s
  | .releaseHold source tag args => Sys2Proof.Machine.execReleaseHold source tag args s
  | .setDial source tag args => Sys2Proof.Machine.execSetDial source tag args s
  | .readDial source tag args => Sys2Proof.Machine.execReadDial source tag args s
  | .serviceReset source tag args => Sys2Proof.Machine.execServiceReset source tag args s
  | .readPoint source tag args => Sys2Proof.Machine.execReadPoint source tag args s
  | .readStatus source tag args => Sys2Proof.Machine.execReadStatus source tag args s
  | .clearAlarms source tag args => Sys2Proof.Machine.execClearAlarms source tag args s
  | .restart source tag args => Sys2Proof.Machine.execRestart source tag args s
  | .newsBatchWaitEnd => Sys2Proof.Machine.execNewsBatchWaitEnd s
  | .historyVisit => Sys2Proof.Machine.execHistoryVisit s
  | .holdWalkVisit originator number => Sys2Proof.Machine.execHoldWalkVisit originator number s
  | .holdCloseDeadline originator number => Sys2Proof.Machine.execHoldCloseDeadline originator number s
  | .startDeadline point => Sys2Proof.Machine.execStartDeadline point s
  | .strokeDeadline point => Sys2Proof.Machine.execStrokeDeadline point s
  | .checkOpening entry => Sys2Proof.Machine.execCheckOpening entry s
  | .checkDecision entry => Sys2Proof.Machine.execCheckDecision entry s
  | .targetChange line => Sys2Proof.Machine.execTargetChange line s
  | .pulseEnd line => Sys2Proof.Machine.execPulseEnd line s
  | .spacingWaitEnd line => Sys2Proof.Machine.execSpacingWaitEnd line s
  | .testWaitEnd line => Sys2Proof.Machine.execTestWaitEnd line s
  | .testPulseEnd line => Sys2Proof.Machine.execTestPulseEnd line s
  | .lineBusy => Sys2Proof.Machine.execLineBusy s
  | .referenceCharacter character framingError => Sys2Proof.Machine.execReferenceCharacter character framingError s
  | .byteNotAcknowledged => Sys2Proof.Machine.execByteNotAcknowledged s

end Sys2Proof.Machine
end

