-- ==== Sys2Proof/Safety.lean ====
section
/-! DEFINITION. The terms that the claims use: the blocks of the state and what a command may change, the journal as a sequence of
writes, the invariants of the machine, and the shapes that several commands share. -/

namespace Sys2Proof.Machine

/-! ### What a command may change -/

/-- The pieces of the state that a frame speaks of: one per block, the alarm latches apart from the rest of their unit. -/
inductive Block where
  | clock | port | agree | line | input | journal | reader | news | watch | points | checks | marks | dials | alarms
  | query | config | settings | pins | choices | pending
  deriving DecidableEq, Repr

/-- A block stands in `t` as it stood in `s`. -/
def Block.same (s t : State) : Block → Prop
  | .clock => t.clock = s.clock
  | .port => t.port = s.port
  | .agree => t.agree = s.agree
  | .line => t.line = s.line
  | .input => t.input = s.input
  | .journal => t.journal = s.journal
  | .reader => t.reader = s.reader
  | .news => t.news = s.news
  | .watch => t.watch = s.watch
  | .points => t.points = s.points
  | .checks => t.checks = s.checks
  | .marks => t.marks = s.marks
  | .dials => t.dials = s.dials
  | .alarms => t.query.latched = s.query.latched
  | .query => t.query.answers = s.query.answers ∧ t.query.restartPending = s.query.restartPending ∧
      t.query.enables = s.query.enables ∧ t.query.cause = s.query.cause
  | .config => t.config = s.config
  | .settings => t.settings = s.settings
  | .pins => t.pins = s.pins
  | .choices => t.choices = s.choices
  | .pending => t.pending = s.pending

/-- Nothing but the named blocks differs. -/
def onlyChanges (blocks : List Block) (s t : State) : Prop := ∀ b, b ∉ blocks → b.same s t

/-- Every latched alarm bit of `s` is latched in `t` (R196: a latched bit goes only by CLEAR ALARMS and by a restart). -/
def keepsLatches (s t : State) : Prop := s.query.latched &&& ~~~t.query.latched = 0

/-- Every source live in `t` is latched in `t` (R196). -/
def latchedWhileLive (t : State) : Prop := liveMask t &&& ~~~t.query.latched = 0

/-- The live condition of the source of bit `k` (R12, R30, R43, R63, R81, R117, R138, R157, R173, R186, R195, R198): CHECK and NEWS_GAP, of bits
6 and 9, have none. -/
def sourceLive (s : State) (k : Nat) : Prop :=
  match k with
  | 0 => s.agree.state = .unset ∨ s.agree.state = .holdover ∨ 1 ≤ s.agree.disputeCount
  | 1 => s.port.state = .searching
  | 2 => ∃ i : Station, s.agree.peers[i].outlier = true
  | 3 => s.line.trouble = true
  | 4 => ∃ i : InputNo, s.input.channels[i].mode = .chattering
  | 5 => ∃ p : PointNo, s.points[p].defn ≠ none ∧
      (s.points[p].state = .lost ∨ s.points[p].state = .both ∨ (∃ side call loss, s.points[p].state = .overtime side call loss) ∨
        s.points[p].startFailed = true)
  | 7 => ∃ l : DialNo, 3 ≤ s.dials[l].failed
  | 8 => s.marks.holds.length = 4 ∨ 922 ≤ (s.marks.holds.map fun h => h.records.length).sum
  | 10 => s.config.state = .unconfigured ∨ (s.config.state = .configured ∧ ∃ p : PointNo, s.points[p].noRoom = true)
  | _ => False

/-! ### The journal as a sequence of writes (R84–R87) -/

/-- One write: the oldest record of a full ring goes, the new record takes the next number and is placed as the newest. -/
def Journal.write (j : Journal) (r : Record) : Journal :=
  { records := (if j.records.length < Config.journalSize then j.records else j.records.drop 1) ++
      [{ r with number := j.next }]
    next := j.next + 1 }

/-- Several writes in turn. -/
def Journal.writeAll (j : Journal) (rs : List Record) : Journal := rs.foldl Journal.write j

/-- A write replaces the record of this number: the ring is full, and it is the oldest (R84, R87). -/
def replaces (n : JournalNo) (s : State) : Prop :=
  Config.journalSize ≤ s.journal.records.length ∧ s.journal.records.head?.map Record.number = some n

/-- The journal took one record, and after it only records that it caused: HOLD PARTIAL and HOLD TRUNCATED (R169, R172). -/
def tookRecord (r : Record) (s t : State) : Prop :=
  ∃ caused : List Record, t.journal = s.journal.writeAll (r :: caused) ∧ ∀ x ∈ caused, x.kind = .hold

/-- The journal took some records, the first of them `r`. -/
def tookFirst (r : Record) (s t : State) : Prop :=
  ∃ more : List Record, t.journal = s.journal.writeAll (r :: more)

/-- The records held have consecutive journal numbers, modulo 2^32, that end just before the next journal number (R85). -/
def journalOrdered (s : State) : Prop :=
  ∀ i r, s.journal.records[i]? = some r → r.number = oldestNumber s.journal + BitVec.ofNat 32 i

/-! ### What writing and delivering records can change -/

/-- What names a hold (R167). -/
def Hold.identity (h : Hold) : Station × Byte := (h.mark.originator, h.mark.number)

/-- What writing records does to a hold that stands (R169, R170, R172): a CLOSED one stays as it is; the walk of a COPYING one moves on past
records replaced, and it may become PARTIAL; a FILLING one takes records of its window behind its own, and may close TRUNCATED. -/
def Hold.goesOn (h x : Hold) : Prop :=
  match h.state with
  | .closed => x = h
  | .copying =>
    x = { h with walk := x.walk, isPartial := x.isPartial } ∧ (h.isPartial = true → x.isPartial = true) ∧
      x.walk.isSome = h.walk.isSome
  | .filling =>
    ∃ more : List Record, (∀ r ∈ more, h.start ≤ r.date.time ∧ r.date.time ≤ h.stop) ∧
      (x = { h with records := h.records ++ more } ∨
        x = { h with records := h.records ++ more, state := .closed, truncated := true, walk := none, deadline := none })

/-- What names a read in service (R91). -/
def Read.identity (rd : Read) : Station × Byte × ReadSource := (rd.requester, rd.tag, rd.source)

/-- `t` comes about from `s` by writing records and delivering them, with all that follows: what no such consequence changes, the journal
as a sequence of writes, and latches kept. -/
structure Delivered (s t : State) : Prop where
  clock : t.clock = s.clock
  port : t.port = s.port
  agree : t.agree = s.agree
  input : t.input = s.input
  dials : t.dials = s.dials
  config : t.config = s.config
  settings : t.settings = s.settings
  pins : t.pins = s.pins
  pending : t.pending = s.pending
  answers : t.query.answers = s.query.answers
  restartPending : t.query.restartPending = s.query.restartPending
  enables : t.query.enables = s.query.enables
  cause : t.query.cause = s.query.cause
  running : t.line.running = s.line.running
  activity : t.line.activity = s.line.activity
  freeAt : t.line.freeAt = s.line.freeAt
  quietFrom : t.line.quietFrom = s.line.quietFrom
  fairness : t.line.fairness = s.line.fairness
  trouble : t.line.trouble = s.line.trouble
  counters : t.line.counters = s.line.counters
  beaconSlot : t.line.slots[(0 : TelegramClass)] = s.line.slots[(0 : TelegramClass)]
  heard : t.news.heard = s.news.heard
  silence : t.news.silence = s.news.silence
  sequences : t.news.lastSequence = s.news.lastSequence
  gapsHeard : t.news.counters.gapsHeard = s.news.counters.gapsHeard
  target : t.news.flushTarget = s.news.flushTarget
  definitions : ∀ p : PointNo, t.points[p].defn = s.points[p].defn
  reading : t.reader.map Read.identity = s.reader.map Read.identity
  holding : ∃ kept made, t.marks.holds = kept ++ made ∧ List.Forall₂ Hold.goesOn s.marks.holds kept
  journal : ∃ rs, t.journal = s.journal.writeAll rs
  latched : keepsLatches s t

/-- `t` comes about from `s` by writing records alone, delivered to no point and to no check entry. -/
structure Wrote (s t : State) : Prop extends Delivered s t where
  points : t.points = s.points
  checks : t.checks = s.checks
  watch : t.watch = s.watch
  own : t.marks.own = s.marks.own
  outgoing : t.marks.outgoing = s.marks.outgoing
  notSent : t.marks.notSent = s.marks.notSent
  markSlot : t.line.slots[(1 : TelegramClass)] = s.line.slots[(1 : TelegramClass)]
  held : List.Forall₂ Hold.goesOn s.marks.holds t.marks.holds

/-- What a record says (R86), its journal number and its UNCERTAIN flag apart. -/
def tells (r : Record) (kind : RecordKind) (date : Date) (subject code : Nat) (value : Option Int) : Prop :=
  r.kind = kind ∧ r.date = date ∧ r.subject = byteOf subject ∧ r.code = byteOf code ∧
    r.valuePresent = value.isSome ∧ r.value = BitVec.ofInt 32 (value.getD 0)

/-- From `base` on, the record `r` was written and delivered to no point and no check entry, with nothing else but what a write brings
about: HOLD records it caused, the announcement queue, a NEWS or a HISTORY telegram formed, holds that took it. -/
def justWrote (r : Record) (base t : State) : Prop := Wrote base t ∧ tookRecord r base t

/-- From `base` on, records were written, `r` the first of them, and delivered, with what follows from that. -/
def wroteFirst (r : Record) (base t : State) : Prop := Delivered base t ∧ tookFirst r base t

/-- The journal took `r`, HOLD records it caused, `q`, and perhaps more. -/
def tookInTurn (r q : Record) (s t : State) : Prop :=
  ∃ caused more : List Record, t.journal = s.journal.writeAll (r :: caused ++ q :: more) ∧ ∀ x ∈ caused, x.kind = .hold

/-! ### Deliveries (R76, R111, R114, R144) -/

/-- Steps taken one after another, one for each item of a list. -/
def inTurn {α : Type} (step : α → State → State → Prop) : List α → State → State → Prop
  | [], a, b => b = a
  | x :: rest, a, b => ∃ m, step x a m ∧ inTurn step rest m b

/-- Each point whose definition names an input takes something, and each active check entry whose subject is that input, each once, in some
order, and no other (R76, R114). -/
def takenByAll (point : PointNo → State → State) (entry : EntryNo → State → State) (station : Station) (input : InputNo)
    (a b : State) : Prop :=
  ∃ (order : List Receiver) (n : Nat), order.Nodup ∧
    (∀ p : PointNo, .point p ∈ order ↔ ∃ d ref, a.points[p].defn = some d ∧ d.refs.at ref = (station, input)) ∧
    (∀ e : EntryNo, .entry e ∈ order ↔
      ∃ c edge, a.checks[e] = some c ∧ c.phase ≠ .done ∧ c.subject = .input station input edge) ∧
    b = order.foldl (fun u x => match x with
      | .point p => point p u
      | .entry e => entry e u) (a.setChoices n)

/-- A record of an input was delivered to every point and check entry that names it. -/
def deliveredToAll (station : Station) (input : InputNo) (r : Record) (a b : State) : Prop :=
  takenByAll (deliverToPoint station input r) (deliverInputToCheck station input r) station input a b

/-- That an input's watch entry has become UNCERTAIN was reported to every point and check entry that names it. -/
def reportedToAll (station : Station) (input : InputNo) (a b : State) : Prop :=
  takenByAll (reportToPoint station input) (reportToCheck station input) station input a b

/-- A POINT record, with the state entered, was handed on to each active check entry whose subject is the point, each once, in some order
(R144). -/
def deliveredToEntries (p : PointNo) (outcome : PointOutcome) (entered : PointState) (date : Date) (a b : State) : Prop :=
  ∃ (order : List EntryNo) (n : Nat), order.Nodup ∧
    (∀ e : EntryNo, e ∈ order ↔ ∃ c side, a.checks[e] = some c ∧ c.phase ≠ .done ∧ c.subject = .point p side) ∧
    b = order.foldl (fun u e => deliverPointToCheck p outcome entered date e u) (a.setChoices n)

/-- From `base` on, a channel's record `q` was written, and delivered with its journal number (R76). -/
def wroteInput (i : InputNo) (q : Record) (base t : State) : Prop :=
  wroteFirst q base t ∧
    ∃ u, justWrote q base u ∧ deliveredToAll (own base) i { q with number := base.journal.next } u t

/-- A gap of a station became known: every watch entry of it is UNCERTAIN, and each that was not before is reported, one at a time (R114). -/
def gapReported (source : Station) (a b : State) : Prop :=
  ∃ (order : List WatchEntry) (n : Nat),
    order.Perm (a.watch.filter fun w => w.station == source && decide (w.condition ≠ .uncertain)) ∧
      inTurn (fun w => reportedToAll w.station w.input) order
        ((a.setWatch (a.watch.map fun w => if w.station = source then { w with condition := .uncertain } else w)).setChoices n) b

/-- A heard record of a station was taken: where its kind gives a condition and its input has a watch entry, the entry takes it and the record
is delivered; any other does nothing (R111, R114). -/
def heardRecord (source : Station) (r : Record) (a b : State) : Prop :=
  let watched := fun i : InputNo => i.val = r.subject.toNat ∧ ∃ w ∈ a.watch, w.station = source ∧ w.input = i
  (∀ (c : Condition) (i : InputNo), conditionFrom r = some c → watched i →
    deliveredToAll source i r (a.setWatch (a.watch.map fun w =>
      if w.station = source ∧ w.input = i then { w with condition := c } else w)) b) ∧
    ((conditionFrom r = none ∨ ∀ i, ¬ watched i) → b = a)

/-! ### Marks raised (R162–R164, R166) -/

/-- A hold of a mark that was made while the store held 1,024 records: closed TRUNCATED at once, with no record (R166, R167, R172). (That close due
stands in it where the close deadline was past is log entry 39.) -/
def truncatedAtOnce (m : MarkInfo) (s : State) (h : Hold) : Prop :=
  h = { mark := m, start := m.time - m.pre * 1000000, stop := m.time + m.post * 1000000, cls := s.clock.cls, state := .closed
        truncated := true, isPartial := false, walk := none, deadline := none
        closeDue := decide (m.time + m.post * 1000000 + 1000000 ≤ s.clock.lineTime), inUse := false, records := [] }

/-- A hold of a mark as it was made while the store had room (R166–R168, R171): its window and its class, COPYING from the oldest record. -/
def newlyMade (m : MarkInfo) (s : State) : Hold :=
  let start := m.time - m.pre * 1000000
  let stop := m.time + m.post * 1000000
  { mark := m, start := start, stop := stop, cls := s.clock.cls, state := .copying, truncated := false, isPartial := false
    walk := some (oldestNumber s.journal), deadline := some (stop + 1000000)
    closeDue := decide (stop + 1000000 ≤ s.clock.lineTime), inUse := false, records := [] }

/-- The records of the journal of `s` that writes have replaced by `t` (R84, R85). -/
def replacedSince (s t : State) : List Record :=
  s.journal.records.take (oldestNumber t.journal - oldestNumber s.journal).toNat

/-- A hold of a mark that was made since `s` while the store had room, as it stands in `t` (R166–R169, R171): as it was made, but that its walk is
still at the oldest record where writes have replaced the one that was the oldest, and that it is PARTIAL only where one replaced lay in its window. -/
def newlyHeld (m : MarkInfo) (s t : State) (h : Hold) : Prop :=
  h = { newlyMade m s with isPartial := h.isPartial, walk := h.walk } ∧
    (journalOrdered s → h.walk = some (oldestNumber t.journal)) ∧
    (journalOrdered s → h.isPartial = true → ∃ r ∈ replacedSince s t, h.start ≤ r.date.time ∧ r.date.time ≤ h.stop)

/-- After the record `r` a mark was raised here: MARK RAISED was written with the own mark number, which moved on to the next that names no hold
raised here; its telegram joined the outgoing mark list, or was counted as not sent where that was full; and a hold of it, the last of the table, was made where
the table had room, closed TRUNCATED at once where the store had none, and NOT_HELD was written where the table had none. (Where `r` itself took
the last place of the store, the store had none.) -/
def raisedMark (r : Record) (reason subject : Byte) (time : LineTime) (pre post : Nat) (s t : State) : Prop :=
  let n := s.marks.own
  let m : MarkInfo :=
    { originator := own s, number := n, reason := reason, subject := subject, time := time, pre := pre, post := post }
  let told := fun (kind : RecordKind) (code : Nat) (q : Record) =>
    tells q kind ⟨s.clock.lineTime, s.clock.cls⟩ (own s).val code (some n.toNat)
  let fresh := ∀ h ∈ s.marks.holds, h.identity ≠ (own s, n)
  let count := s.marks.holds.length
  (∃ q before after, t.journal = s.journal.writeAll (r :: before ++ q :: after) ∧ told .mark 0 q ∧
      (fresh → 4 ≤ count → ∃ x ∈ after, told .mark 2 x) ∧
      (fresh → count < 4 → 1024 ≤ storeCount s.marks.holds →
        (∃ x ∈ after, told .hold 0 x) ∧ ∃ h, t.marks.holds.getLast? = some h ∧ truncatedAtOnce m s h)) ∧
    (fresh → count < 4 → t.marks.holds.map Hold.mark = s.marks.holds.map Hold.mark ++ [m] ∧
      ∃ h, t.marks.holds.getLast? = some h ∧
        (newlyHeld m s t h ∨ (truncatedAtOnce m s h ∧ 1024 ≤ storeCount t.marks.holds))) ∧
    (4 ≤ count → t.marks.holds.map Hold.mark = s.marks.holds.map Hold.mark) ∧
    (count ≤ 4 → ∃ j, j ≤ 4 ∧ t.marks.own = n + 1 + BitVec.ofNat 8 j ∧
      (∀ h ∈ s.marks.holds, h.identity ≠ (own s, t.marks.own)) ∧
      ∀ i < j, ∃ h ∈ s.marks.holds, h.identity = (own s, n + 1 + BitVec.ofNat 8 i)) ∧
    (s.marks.outgoing.length < 8 → t.marks.outgoing = s.marks.outgoing ++ [m] ∧ t.marks.notSent = s.marks.notSent) ∧
    (8 ≤ s.marks.outgoing.length →
      t.marks.outgoing = s.marks.outgoing ∧ t.marks.notSent = min 65535 (s.marks.notSent + 1))

/-- `q` is n / d rounded to the nearest whole number, halves away from zero (R1). -/
def roundsTo (n : Int) (d : Nat) (q : Int) : Prop :=
  (2 * (q * d - n)).natAbs ≤ d ∧ ((2 * (q * d - n)).natAbs = d → n.natAbs < (q * d).natAbs)

/-! ### Invariants -/

/-- The class corresponds to the agreement state (R9). -/
def classFollowsState (s : State) : Prop := s.clock.cls = classOf s.agree.state

/-- Line time within its 56 bits, the fraction below a microsecond, the trim within ±200.00 ppm, the slew within ±500.00 ppm, and no slew
in a fast slew (R2–R5, R7). -/
def clockSound (s : State) : Prop :=
  s.clock.lineTime ≤ Config.maxLineTime ∧ s.clock.fraction < Config.fractionUnits ∧
    (-20000 ≤ s.clock.trim ∧ s.clock.trim ≤ 20000) ∧ (-50000 ≤ s.clock.slew ∧ s.clock.slew ≤ 50000) ∧
    (s.clock.fastSlewEnd.isSome → s.clock.slew = 0)

/-- The counts within their ranges, and 0 in the states they do not count in (R35); the port VALID exactly in Reference, and NOT_FITTED
until a configuration read has ended (R12, R41, R42); a peer heard has an offset and a class other than UNSET, and its streak is at most
8 (R26, R27, R30). -/
def agreementSound (s : State) : Prop :=
  s.agree.lockCount ≤ 3 ∧ s.agree.disputeCount ≤ 2 ∧ s.agree.emptyCount ≤ 3 ∧
    (s.agree.state ≠ .acquiring → s.agree.lockCount = 0) ∧
    (s.agree.state ≠ .locked → s.agree.disputeCount = 0 ∧ s.agree.emptyCount = 0) ∧
    (s.port.state = .valid ↔ s.agree.state = .reference) ∧
    (s.config.phase ≠ .over → s.port.state = .notFitted) ∧
    s.port.count ≤ 3 ∧
    ∀ i : Station, s.agree.peers[i].streak ≤ 8 ∧
      (s.agree.peers[i].heard = true →
        s.agree.peers[i].offset.isSome = true ∧ s.agree.peers[i].cls.isSome = true ∧
          s.agree.peers[i].cls ≠ some .unset)

/-- The slot class of a telegram's payload (R48, R53). -/
def Payload.slotClass : Payload → TelegramClass
  | .beacon _ => 0
  | .mark _ => 1
  | .news _ => 2
  | .answer _ _ _ _ => 2
  | .history _ _ _ _ _ => 3

/-- A slot holds a telegram on the line. -/
def Slot.isSending : Slot → Bool
  | .sending _ _ _ => true
  | _ => false

/-- The telegram a slot holds. -/
def Slot.telegram : Slot → Option OutTelegram
  | .vacant => none
  | .waiting t _ => some t
  | .sending t _ _ => some t

/-- One slot: its telegram is of its class, its attempts are fewer than 8 while it waits and 1 to 8 while it is sent, and a waiting
beacon has made none (R53, R59). -/
def Slot.sound (k : TelegramClass) (osc : OscTime) : Slot → Prop
  | .vacant => True
  | .waiting t n => t.payload.slotClass = k ∧ n < Config.maxAttempts ∧ (k = 0 → n = 0)
  | .sending t n since => t.payload.slotClass = k ∧ 1 ≤ n ∧ n ≤ Config.maxAttempts ∧ since ≤ osc

/-- The line controller runs exactly when a configuration read has ended (R64); it sends exactly while one slot is SENDING, and never two
at once (R53, R55); a free line has its moment, and a busy one that it watches the moment from which quiet is measured (R47); every slot
is sound; the news unit's sender is PLACED exactly while its telegram is in the class 2 slot (R105). -/
def lineSound (s : State) : Prop :=
  (s.line.running = true ↔ s.config.phase = .over) ∧
    (s.line.running = false → s.line.activity = .busy) ∧
    (s.line.activity = .sending ↔ ∃ k : TelegramClass, s.line.slots[k].isSending = true) ∧
    (∀ j k : TelegramClass, s.line.slots[j].isSending = true → s.line.slots[k].isSending = true → j = k) ∧
    (s.line.activity = .free → s.line.freeAt.isSome = true) ∧
    (s.line.running = true → s.line.activity = .busy → s.line.quietFrom.isSome = true) ∧
    (∀ k : TelegramClass, s.line.slots[k].sound k s.clock.osc) ∧
    (∀ n, s.news.sender = .placed n ↔ (s.line.slots[(2 : TelegramClass)].telegram.map OutTelegram.payload) = some (.news n))

/-- The ring of 4,096 records (R84). -/
def journalFits (s : State) : Prop := s.journal.records.length ≤ Config.journalSize

/-- The announcement queue of 64 (R103). -/
def queueFits (s : State) : Prop := s.news.queue.length ≤ Config.queueSize

/-- One hold (R167, R168, R171): its window is its mark's; it walks exactly in COPYING, close due is set in no FILLING hold, and the close
deadline, its window's end plus 1 s, is held while it is not CLOSED. -/
def Hold.sound (h : Hold) : Prop :=
  h.start = h.mark.time - h.mark.pre * 1000000 ∧ h.stop = h.mark.time + h.mark.post * 1000000 ∧
    match h.state with
    | .copying => h.walk.isSome = true ∧ h.deadline = some (h.stop + 1000000)
    | .filling => h.walk = none ∧ h.closeDue = false ∧ h.deadline = some (h.stop + 1000000)
    | .closed => h.walk = none ∧ h.deadline = none

/-- The hold table of 4 and the hold store of 1,024, each hold sound and no two of one identity (R167, R172). -/
def holdsFit (s : State) : Prop :=
  s.marks.holds.length ≤ Config.holdTableSize ∧ storeCount s.marks.holds ≤ Config.storeSize ∧
    (∀ h ∈ s.marks.holds, h.sound) ∧ (s.marks.holds.map Hold.identity).Nodup

/-- Every record in a hold is dated within the hold's window (R167). -/
def holdsDated (s : State) : Prop :=
  ∀ h ∈ s.marks.holds, ∀ r ∈ h.records, h.start ≤ r.date.time ∧ r.date.time ≤ h.stop

/-- The watch table of 48 (R113). -/
def watchFits (s : State) : Prop := s.watch.length ≤ Config.watchSize

/-- The answer queue of 4 (R193). -/
def answersFit (s : State) : Prop := s.query.answers.length ≤ Config.answerQueueSize

/-- The outgoing mark list of 8 (R164). -/
def marksFit (s : State) : Prop := s.marks.outgoing.length ≤ Config.markListSize

/-- Every table and every queue is within its size. -/
def tablesFit (s : State) : Prop :=
  journalFits s ∧ queueFits s ∧ holdsFit s ∧ watchFits s ∧ answersFit s ∧ marksFit s

/-- One check entry (R143, R146, R151, R152): its window and tolerances lie as POST CHECK clamps them; a match held lies in the window; an
active entry holds a match exactly in MATCHED, and its one deadline is the opening or the decision that its state calls for. -/
def CheckEntry.sound (c : CheckEntry) : Prop :=
  c.due ≤ c.openAt + c.watchBefore * 1000000 ∧ c.openAt ≤ c.due ∧ c.closeAt = c.due + c.watchAfter * 1000000 ∧
    c.earlyTolerance ≤ c.watchBefore ∧ c.lateTolerance ≤ c.watchAfter ∧
    (c.period = 0 ∨ (60 ≤ c.period ∧ c.period ≤ 86400)) ∧
    (∀ d, c.held = some d → c.openAt ≤ d.time ∧ d.time ≤ c.closeAt) ∧
    (match c.phase, c.held with
      | .waiting, none => c.deadline = some c.openAt
      | .opened, none => c.deadline = some (c.closeAt + c.settle * 1000000)
      | .matched, some d => c.deadline = some (d.time + c.settle * 1000000)
      | .done, _ => c.deadline = none
      | _, _ => False)

/-- One point (R121, R122, R124, R126–R130, R133): an undefined one is UNKNOWN; a defined one is UNKNOWN exactly while one of its four references is not
known, its start-failed flag then clear; in the other states its detections stand as the state says, and CALLED and MOVING hold the deadline
that their limit gives. -/
def Point.sound (x : Point) : Prop :=
  let stands := fun (ref : Ref) (l : Level) => ∃ d, x.views.at ref = .known l d
  let detections := fun (side : Side) (here there : Level) => stands side.detection here ∧ stands side.other.detection there
  (x.defn = none → x.state = .unknown) ∧
    ∀ dfn, x.defn = some dfn →
      (x.state = .unknown ↔ ∃ ref : Ref, ∀ l, ¬ stands ref l) ∧
        match x.state with
        | .unknown => x.startFailed = false
        | .detected side => detections side .active .inactive
        | .called toward call d =>
          d = call.time + dfn.startMs * 1000 ∧ stands toward.call .active ∧ detections toward .inactive .active
        | .moving toward _ loss d => d = loss.time + dfn.strokeMs * 1000 ∧ detections toward .inactive .inactive
        | .overtime toward _ _ => detections toward .inactive .inactive
        | .lost => detections .normal .inactive .inactive
        | .both => detections .normal .active .active

/-- Every point is sound. -/
def pointsSound (s : State) : Prop := ∀ p : PointNo, s.points[p].sound

/-- Every check entry is sound. -/
def entriesSound (s : State) : Prop := ∀ (e : EntryNo) (c : CheckEntry), s.checks[e] = some c → c.sound

/-- One impulse line (R179, R180, R182, R184–R186): a step of 30 or 60 s; a position within the face of its step, none exactly in UNSET; a
target within the face; a pulse under way has its start and no wait; FAULT and CATCHING_UP hold their wait and no other state does; a
test is only of a pulse; the failed-pulse count is 3 or more exactly in FAULT and in a test pulse. -/
def Dial.sound (d : Dial) : Prop :=
  (d.defn.step = 30 ∨ d.defn.step = 60) ∧
    (∀ p, d.position = some p → p < faceSize d.defn ∧ d.positionStep = d.defn.step) ∧
    (∀ x, d.target = some x → x < faceSize d.defn) ∧
    (d.state = .unset ↔ d.position = none) ∧
    (d.state = .pulsing → d.last.isSome = true) ∧
    (d.wait.isSome = true ↔ d.state = .fault ∨ d.state = .catchingUp) ∧
    (d.test = true → d.state = .pulsing) ∧
    (3 ≤ d.failed ↔ d.state = .fault ∨ (d.state = .pulsing ∧ d.test = true)) ∧ d.failed ≤ 255

/-- Every impulse line is sound. -/
def dialsSound (s : State) : Prop := ∀ l : DialNo, s.dials[l].sound

/-- Until a configuration read has ended nothing runs that takes its settings: the line, the reference port, the interval timer, the beacon
phase, the answers, the reader, the channels, the points, the check table and the impulse lines (R12, R22, R23, R64, R83, R101, R142, R161,
R191, R193). -/
def quietWhileReading (s : State) : Prop :=
  s.config.phase ≠ .over →
    s.line.running = false ∧ s.line.activity = .busy ∧ (∀ k : TelegramClass, s.line.slots[k].isSending = false) ∧
      s.port.state = .notFitted ∧ s.agree.timerFrom = none ∧ s.agree.phase = none ∧ s.query.answers = [] ∧
      s.query.restartPending = false ∧ s.reader = none ∧
      (∀ i : InputNo, s.input.channels[i].mode = .off ∧ s.input.channels[i].run = none) ∧
      (∀ p : PointNo, s.points[p].state = .unknown) ∧ (∀ e : EntryNo, s.checks[e] = none) ∧
      (∀ l : DialNo, (s.dials[l].state = .unset ∨ s.dials[l].state = .idle) ∧ s.dials[l].failed = 0 ∧
        s.dials[l].test = false ∧ s.dials[l].target = none ∧ s.dials[l].deadline = none ∧ s.dials[l].wait = none)

/-! ### The class 2 arbiter, the sender, and the history reader -/

/-- The arbiter looked at the class 2 slot (R54): an EMPTY one went to the news unit's FORMED telegram or to the oldest answer's next part,
whichever was ready, and of both to the unit that had not filled it last; one that was not EMPTY, or for which nothing was ready, stayed. -/
def classTwoFilled (s t : State) : Prop :=
  let vacant := s.line.slots[(2 : TelegramClass)] = .vacant
  let filled := fun (x : OutTelegram) (byNews : Bool) (u : State) =>
    u.setLine { s.line with slots := setAt s.line.slots 2 (.waiting x 0), newsFilledLast := byNews }
  (¬ vacant → t = s) ∧
    (∀ n, vacant → s.news.sender = .formed n → s.query.answers = [] ∨ s.line.newsFilledLast = false →
      t = filled ⟨63, .news n⟩ true (s.setNews { s.news with sender := .placed n })) ∧
    (∀ a rest, vacant → s.query.answers = a :: rest → (∀ n, s.news.sender ≠ .formed n) ∨ s.line.newsFilledLast = true →
      t = filled ⟨BitVec.ofNat 6 a.dest.val, .answer a.tag a.kind a.result (a.parts.headD [])⟩ false s) ∧
    (vacant → s.query.answers = [] → (∀ n, s.news.sender ≠ .formed n) → t = s)

/-- What lets a sender in NONE form a telegram (R105, R107, R109): the line runs, the queue is not empty, and it has reached the watermark, or its
oldest record has waited 20 ms, or a flush target is still in it. -/
def senderForms (s : State) : Prop :=
  s.news.sender = .idle ∧ s.line.running = true ∧ s.news.queue ≠ [] ∧
    (s.settings.watermark ≤ s.news.queue.length ∨
      (∃ q rest, s.news.queue = q :: rest ∧ q.2 + 200000 ≤ s.clock.osc) ∨
      ∃ n, s.news.flushTarget = some n ∧ ∃ q ∈ s.news.queue, q.1.number = n)

/-- The sender looked at its conditions (R105, R106, R108): where they let it form, a telegram of up to 8 of the oldest records, with the next
sequence and the gap count, which returned to 0, was offered to the arbiter; else nothing changed. -/
def senderLooked (s t : State) : Prop :=
  (¬ senderForms s → t = s) ∧
    (senderForms s →
      classTwoFilled
        (s.setNews
          { s.news with
            queue := s.news.queue.drop 8, gap := 0, nextSequence := s.news.nextSequence + 1
            sender := .formed
              { sequence := s.news.nextSequence, gap := s.news.gap, records := (s.news.queue.take 8).map Prod.fst } }) t)

/-- A read that collects looked at what it has (R95, R96): with 8 records, or with nothing left to visit, its HISTORY telegram was made, placed
at once in an EMPTY class 3 slot with the skipped count, and else READY; a read with more to visit stayed. -/
def readerCollected (s t : State) : Prop :=
  let complete := fun rd : Read => rd.mode = .collecting ∧ (rd.remaining = 0 ∨ 8 ≤ rd.collected.length)
  ((∀ rd, s.reader = some rd → ¬ complete rd) → t = s) ∧
    ∀ rd, s.reader = some rd → complete rd →
      let ends := decide (rd.remaining = 0)
      (s.line.slots[(3 : TelegramClass)] ≠ .vacant → t = s.setReader (some { rd with mode := .ready, ends := ends })) ∧
        (s.line.slots[(3 : TelegramClass)] = .vacant →
          t = (s.setReader (some { rd with mode := .placed, ends := ends, skipped := 0, collected := [] })).setLine
            { s.line with
              slots := setAt s.line.slots 3 (.waiting
                ⟨BitVec.ofNat 6 rd.requester.val,
                  .history rd.tag ends (decide (0 < rd.skipped)) rd.skipped rd.collected⟩ 0) })

/-- A read in NEWS_WAIT looked at what it waits for (R94): with its target and its ACCEPTED answer both finished it left for COLLECTING; any
other stayed. -/
def readerLooked (s t : State) : Prop :=
  let waits := fun rd : Read => rd.mode = .newsWait ∧ rd.target = none ∧ rd.answered = true
  ((∀ rd, s.reader = some rd → ¬ waits rd) → t = s) ∧
    ∀ rd, s.reader = some rd → waits rd → readerCollected (s.setReader (some { rd with mode := .collecting })) t

/-! ### Shapes that several commands share -/

/-- What a query carries: its source, tag, kind, arguments, and the argument length of a known kind (R192). -/
structure QueryForm where
  source : Station
  tag : Byte
  kind : Byte
  args : List Byte
  length : Option Nat
  needsRecord : Bool
  deriving DecidableEq, Repr

/-- The commands that are queries (R192). -/
def queryForm : Instr → Option QueryForm
  | .unknownQuery s t k a => some ⟨s, t, k, a, none, false⟩
  | .postCheck s t a => some ⟨s, t, 1, a, some 23, true⟩
  | .withdrawCheck s t a => some ⟨s, t, 2, a, some 1, false⟩
  | .readCheck s t a => some ⟨s, t, 3, a, some 1, false⟩
  | .history s t a => some ⟨s, t, 4, a, some 19, false⟩
  | .historyCancel s t a => some ⟨s, t, 5, a, some 0, false⟩
  | .raiseMark s t a => some ⟨s, t, 6, a, some 12, true⟩
  | .releaseHold s t a => some ⟨s, t, 7, a, some 2, false⟩
  | .setDial s t a => some ⟨s, t, 8, a, some 4, true⟩
  | .readDial s t a => some ⟨s, t, 9, a, some 1, false⟩
  | .serviceReset s t a => some ⟨s, t, 10, a, some 1, true⟩
  | .readPoint s t a => some ⟨s, t, 11, a, some 1, false⟩
  | .readStatus s t a => some ⟨s, t, 12, a, some 1, false⟩
  | .clearAlarms s t a => some ⟨s, t, 13, a, some 2, false⟩
  | .restart s t a => some ⟨s, t, 14, a, some 0, false⟩
  | _ => none

/-- A telegram whose start sequence was heard is being received, and its source is another station. -/
def receiving (source : Station) (s : State) : Prop := (∃ d, s.line.activity = .hearing d) ∧ source ≠ own s

/-- A query from this source finds no restart pending and a place in the answer queue (R192). -/
def takesQuery (source : Station) (s : State) : Prop :=
  receiving source s ∧ s.query.restartPending = false ∧ s.query.answers.length < Config.answerQueueSize

/-! ### What an interval end does whatever it applies -/

/-- The interval closed (R22, R63, R112): peers not heard, no reference offset held, the timer run on by T, no line trouble; every other
station's silence counted up to 3 or, where it was heard, at 0. -/
def intervalClosed (s : State) : State :=
  ((s.setAgree
      { s.agree with
        peers := s.agree.peers.map fun p => { p with heard := false }
        refOffset := none
        timerFrom := s.agree.timerFrom.map (· + secondPeriods s.settings.interval) }).setLine
      { s.line with trouble := false }).setNews
    { s.news with
      heard := Vector.replicate 32 false
      silence := Vector.ofFn fun i =>
        if i = own s then s.news.silence[i] else if s.news.heard[i] then 0 else min 3 (s.news.silence[i] + 1) }

/-- An interval end is due, outside a fast slew (R22, R34). -/
def intervalDue (s : State) : Prop :=
  s.clock.fastSlewEnd = none ∧ ∃ x, s.agree.timerFrom = some x ∧ x + secondPeriods s.settings.interval ≤ s.clock.osc

/-- The members of an interval and their midpoint (R28, R29). -/
def members (s : State) : List Member := memberSet s.agree.peers (own s) s.clock.cls

/-- The agreement unit once a midpoint has been worked out: the summary of the member set, C, and the streaks (R28–R30). -/
def afterMidpoint (s : State) : Agreement :=
  { s.agree with
    lastSet := some { noPeer := false, best := bestHeard s.agree.peers, count := (members s).length }
    lastMidpoint := some (midpoint (members s))
    peers := updateStreaks (own s) (members s) s.agree.peers }

/-- The label of a pulse seen at the latest sample: the pending one, where its message completed at least 100 ms before the sample (R14). -/
def labelledPulseAt (sampled : OscTime) (l : Label) (s : State) : Prop :=
  s.port.pulseSeen = true ∧ s.input.sampledAt = some sampled ∧
    ∃ done, s.port.pending = some (l, done) ∧ done + 1000000 ≤ sampled

/-- A pulse seen at the latest sample that has no label: none is pending, or its message completed less than 100 ms before (R14). -/
def unlabelledPulse (s : State) : Prop :=
  s.port.pulseSeen = true ∧
    (s.port.pending = none ∨
      ∃ sampled l done, s.input.sampledAt = some sampled ∧ s.port.pending = some (l, done) ∧ sampled < done + 1000000)

/-- A label that is consecutive to the last label, or with none held (R15). -/
def follows (p : RefPort) (l : Label) : Prop := p.lastLabel = none ∨ ∃ x, p.lastLabel = some x ∧ x.succ = some l

/-- The ten characters of a label: five decimal digits of the day, five of the second (R13). -/
def labelDigits (day second : Nat) : List Byte :=
  [day / 10000, day / 1000 % 10, day / 100 % 10, day / 10 % 10, day % 10,
    second / 10000, second / 1000 % 10, second / 100 % 10, second / 10 % 10, second % 10].map fun d => byteOf (48 + d)

/-- B (R28): the best class among the peers heard in the interval. -/
def bestClassIs (peers : Vector Peer 32) (best : ClockClass) : Prop :=
  (∃ i : Station, peers[i].heard = true ∧ peers[i].cls = some best) ∧
    ∀ (i : Station) (c : ClockClass), peers[i].heard = true → peers[i].cls = some c → best.number ≤ c.number

/-- The offset of a peer that is a member: heard in the interval, of class B, with its last offset (R28). -/
def peerMember (peers : Vector Peer 32) (best : ClockClass) (m : Member) : Prop :=
  peers[m.2].heard = true ∧ peers[m.2].cls = some best ∧ peers[m.2].offset = some m.1

/-! ### What a telegram received does first -/

/-- The end of the last driven half-bit of a telegram whose reception ends now, with the quiet bit-time after its check (R47, R50): the end of
its last bit-time where its last bit is 1, half a bit-time before it where that is 0. -/
def lastDrivenOf (x : Telegram) (s : State) : OscTime :=
  s.clock.osc - bitPeriods s - (if lastBit x then 0 else bitPeriods s / 2)

/-- A telegram was received from a station: the line is busy until it is next free, quiet is measured from its last driven half-bit, and the
source is reported to the news unit (R47, R52, R112). -/
def heardFrom (source : Station) (x : Telegram) (s : State) : State :=
  (s.setLine { s.line with activity := .busy, quietFrom := some (lastDrivenOf x s) }).setNews
    { s.news with heard := setAt s.news.heard source true, silence := setAt s.news.silence source 0 }

/-- A query was received. -/
def heardQuery (q : QueryForm) (s : State) : State :=
  heardFrom q.source (queryTelegram (own s) q.source q.tag q.kind q.args) s

/-- An answer behind those already in the queue (R193). -/
def withAnswer (a : Answer) (s : State) : State := s.setQuery { s.query with answers := s.query.answers ++ [a] }

/-- An answer of one telegram to a query. -/
def answerTo (source : Station) (tag kind : Byte) (result : Result) (data : List Byte) : Answer :=
  { dest := source, tag := tag, kind := kind, result := result, parts := [data], forRead := false, forRestart := false }

/-- A query was answered, and nothing else happened: the answer joined the queue behind the others, and the arbiter looked at the class 2 slot
(R54, R193). -/
def onlyAnswered (q : QueryForm) (a : Answer) (s t : State) : Prop :=
  (∃ u, classTwoFilled (withAnswer a (heardQuery q s)) u ∧ t = relatch u) ∧ onlyChanges [.line, .news, .query, .alarms] s t

/-- What a watch entry of a station's input holds after its NEWS: the last of the records that name the input gives the condition, and
where none does it stays as it was (R111, R114). -/
def conditionAfter (records : List Record) (input : InputNo) (before : Condition) : Condition :=
  ((records.filterMap fun r => if r.subject.toNat = input.val then conditionFrom r else none).getLast?).getD before

/-! ### A telegram finished -/

/-- What the block that filled a slot does as its telegram finishes, sent or discarded, the slot EMPTY and the line's counters already moved in
`base` (R53, R94–R97, R100, R105, R108, R164, R193, R194). A MARK telegram leaves the list and the next takes the slot. A NEWS telegram is
counted and the sender is NONE; a flush target it carried goes, and is reported to the read that waits for it; the sender looks again, and the
class 2 slot goes to the arbiter. The oldest answer offers its next part, or leaves the queue, reporting an ACCEPTED answer to its read; then the
slot goes to the arbiter. A HISTORY telegram that ended its read leaves the reader IDLE and its hold free; after another the reader collects on;
and a READY one is placed. The answer of a RESTART is not meant here. -/
def blockFinishes (x : OutTelegram) (sent : Bool) (base t : State) : Prop :=
  match x.payload with
  | .beacon _ => t = base
  | .mark _ =>
    t = (base.setMarks
        { base.marks with
          outgoing := base.marks.outgoing.drop 1
          notSent := if sent then base.marks.notSent else min 65535 (base.marks.notSent + 1) }).setLine
      { base.line with
        slots := match base.marks.outgoing.drop 1 with
          | [] => base.line.slots
          | m :: _ => setAt base.line.slots 1 (.waiting ⟨63, .mark m⟩ 0) }
  | .news n =>
    let carried := ∃ r ∈ n.records, base.news.flushTarget = some r.number
    let waited := fun rd : Read => base.reader = some rd ∧ rd.target = base.news.flushTarget
    ∃ target told looked, (carried → target = none) ∧ (¬ carried → target = base.news.flushTarget) ∧
      (let u := base.setNews
        { base.news with
          sender := .idle, flushTarget := target
          counters := if sent then { base.news.counters with sent := min 65535 (base.news.counters.sent + 1) }
            else { base.news.counters with discarded := min 65535 (base.news.counters.discarded + 1) } }
      (¬ carried ∨ (∀ rd, ¬ waited rd) → told = u) ∧
        (∀ rd, carried → waited rd → readerLooked (u.setReader (some { rd with target := none })) told)) ∧
      senderLooked told looked ∧ classTwoFilled looked t
  | .answer _ _ _ _ =>
    (base.query.answers = [] → classTwoFilled base t) ∧
      ∀ a rest, base.query.answers = a :: rest →
        let left := base.setQuery { base.query with answers := rest }
        (2 ≤ a.parts.length →
            classTwoFilled (base.setQuery { base.query with answers := { a with parts := a.parts.tail } :: rest }) t) ∧
          (a.parts.length < 2 → a.forRestart = false → a.forRead = false ∨ base.reader = none → classTwoFilled left t) ∧
          (∀ rd, a.parts.length < 2 → a.forRestart = false → a.forRead = true → base.reader = some rd →
            ∃ told, readerLooked (left.setReader (some { rd with answered := true })) told ∧ classTwoFilled told t)
  | .history _ _ _ _ _ =>
    (base.reader = none → t = base) ∧
      ∀ rd, base.reader = some rd →
        (rd.mode = .placed → rd.ends = true →
            t = (base.setReader none).setMarks
              { base.marks with
                holds := base.marks.holds.map fun h =>
                  if rd.source = .hold h.mark.originator h.mark.number then { h with inUse := false } else h }) ∧
          (rd.mode = .placed → rd.ends = false → readerCollected (base.setReader (some { rd with mode := .collecting })) t) ∧
          (rd.mode = .ready →
            t = (base.setReader (some { rd with mode := .placed, skipped := 0, collected := [] })).setLine
              { base.line with
                slots := setAt base.line.slots 3 (.waiting
                  ⟨BitVec.ofNat 6 rd.requester.val,
                    .history rd.tag rd.ends (decide (0 < rd.skipped)) rd.skipped rd.collected⟩ 0) }) ∧
          (rd.mode = .newsWait ∨ rd.mode = .collecting → t = base)

/-! ### Power-on -/

/-- What the chapters give as the state after power-on (R20, R45, R54, R64, R83, R91, R101, R110, R119, R142, R161, R178, R180, R191, R196, R202),
the RESTART record not yet written. -/
def powerOnValues (s : State) : Prop :=
  (s.clock.lineTime = 0 ∧ s.clock.fraction = 0 ∧ s.clock.trim = 0 ∧ s.clock.slew = 0 ∧ s.clock.fastSlewEnd = none ∧
      s.clock.cls = .unset ∧ s.clock.lastC = none) ∧
    (s.port.state = .notFitted ∧ s.port.pending = none ∧ s.port.count = 0 ∧ s.port.lastLabel = none ∧
      s.port.lossFrom = none ∧ s.port.offset = none) ∧
    (s.agree.state = .unset ∧ s.agree.lockCount = 0 ∧ s.agree.disputeCount = 0 ∧ s.agree.emptyCount = 0 ∧
      s.agree.timerFrom = none ∧ s.agree.phase = none ∧ s.agree.refOffset = none ∧ s.agree.lastMidpoint = none ∧
      s.agree.lastSet = none ∧
      ∀ i : Station, s.agree.peers[i] = { offset := none, cls := none, heard := false, streak := 0, outlier := false }) ∧
    (s.line.running = false ∧ (∀ k : TelegramClass, s.line.slots[k] = .vacant) ∧ s.line.fairness = false ∧
      s.line.newsFilledLast = false ∧ s.line.trouble = false ∧
      s.line.counters = { sent := 0, mismatches := 0, discards := 0, checkFailures := 0, duplicates := 0, queriesDropped := 0 }) ∧
    (s.input.secondFrom = none ∧
      ∀ i : InputNo,
        let c := s.input.channels[i]
        c.mode = .off ∧ c.accepted = none ∧ c.run = none ∧ c.chatterCount = 0 ∧ c.quietCount = 0 ∧ c.lastChange = none) ∧
    (s.journal.records = [] ∧ s.journal.next = 0 ∧ s.reader = none) ∧
    (s.news.queue = [] ∧ s.news.gap = 0 ∧ s.news.nextSequence = 0 ∧ s.news.sender = .idle ∧ s.news.flushTarget = none ∧
      s.news.counters = { sent := 0, discarded := 0, refused := 0, gapsHeard := 0 } ∧
      (∀ i : Station, s.news.lastSequence[i] = none ∧ s.news.heard[i] = false ∧ s.news.silence[i] = 0) ∧ s.watch = []) ∧
    (∀ p : PointNo,
      let x := s.points[p]
      x.defn = none ∧ x.state = .unknown ∧ x.startFailed = false ∧ x.lastOutcome = none ∧ x.lastStroke = none ∧
        x.lastOperate = none ∧ x.trendNormal = ⟨none, 0⟩ ∧ x.trendReverse = ⟨none, 0⟩ ∧ x.service = 0 ∧
        x.serviceDue = false) ∧
    (∀ e : EntryNo, s.checks[e] = none) ∧
    (s.marks.own = 0 ∧ s.marks.outgoing = [] ∧ s.marks.notSent = 0 ∧ s.marks.holds = []) ∧
    (∀ l : DialNo,
      let d := s.dials[l]
      d.position = none ∧ d.negative = false ∧ d.state = .unset ∧ d.failed = 0 ∧ d.last = none ∧ d.target = none ∧
        d.deadline = none ∧ d.wait = none) ∧
    (s.query.answers = [] ∧ s.query.restartPending = false ∧ s.query.latched = 1 ∧ s.query.enables = BitVec.allOnes 11 ∧
      s.query.cause = .powerOn ∧ s.config.state = .reading)

/-! ### A warm restart -/

/-- The agreement state that a warm restart leaves (R45): Reference and Locked are demoted to Holdover. -/
def demotedTo : AgreementState → AgreementState → Prop
  | .unset, x => x = .unset
  | .acquiring, x => x = .acquiring
  | _, x => x = .holdover

/-- What the records of a warm restart tell, in their order (R204): RESTART with the class before it, CLASS_CHANGE where the class differs,
HOLD TRUNCATED for each hold that was still open, DIAL LOST for each impulse line that was pulsing. -/
def restartTells (cause : RestartCause) (s : State) : List (Record → Prop) :=
  let cls : ClockClass := if s.agree.state = .unset then .unset else .drifting
  let date : Date := ⟨s.clock.lineTime, cls⟩
  [fun r => tells r .restart ⟨s.clock.lineTime, s.clock.cls⟩ 0 (causeCode cause) none] ++
    (if s.clock.cls = cls then [] else [fun r => tells r .clock date 0 2 (some cls.number)]) ++
    ((s.marks.holds.filter fun h => h.state != .closed).map fun h =>
      fun r => tells r .hold date h.mark.originator.val 0 (some h.mark.number.toNat)) ++
    ((List.finRange 4).flatMap fun l =>
      match s.dials[l].state, s.dials[l].position with
      | .pulsing, some p => [fun r => tells r .dial date l.val 3 (some p)]
      | _, _ => [])

/-- `t` is `s` warm restarted (R20, R45, R64, R83, R101, R110, R119, R142, R161, R178, R191, R196, R204): line time, its fraction, the
trim and any fast slew run on, the slew ends; the journal, the settings, the gap count and the news sequence, the definitions, the service
counters, the trends, the holds with their records and the positions of the dials are kept; the latched bits go but those of the sources
then live and of a DIAL LOST; all else starts anew, and a new configuration read is awaited. Every line's target goes too (DEDUCED,
unsafe, log entry 23). -/
def warmRestarted (cause : RestartCause) (s t : State) : Prop :=
  t.clock = { s.clock with slew := 0, cls := if s.agree.state = .unset then .unset else .drifting } ∧
    t.port = { state := .notFitted, partialDigits := none, complete := none, pending := none, count := 0
               lastLabel := none, lossFrom := none, offset := s.port.offset, pulseSeen := false } ∧
    (∃ x, demotedTo s.agree.state x ∧ t.agree =
      { s.agree with
        state := x, lockCount := 0, disputeCount := 0, emptyCount := 0, timerFrom := none, refOffset := none
        phase := none, peers := Vector.replicate 32 Peer.cleared }) ∧
    t.line = State.reset.line ∧
    (∀ i : InputNo, t.input.channels[i] = { State.reset.input.channels[i] with defn := s.input.channels[i].defn }) ∧
    t.input.nextSample = s.input.nextSample ∧ t.input.sampledAt = s.input.sampledAt ∧
    t.input.sampleDate = s.input.sampleDate ∧ t.input.secondFrom = none ∧ t.input.secondAwaited = false ∧
    (∃ rs, t.journal = s.journal.writeAll rs ∧ List.Forall₂ (fun r f => f r) rs (restartTells cause s)) ∧
    t.reader = none ∧ t.news.counters = NewsCounters.zero ∧ t.news.heard = Vector.replicate 32 false ∧
    t.news.sender = .idle ∧ t.news.nextSequence = s.news.nextSequence ∧ t.news.flushTarget = none ∧
    t.news.lastSequence = Vector.replicate 32 none ∧ t.news.silence = Vector.replicate 32 0 ∧
    t.news.gap = min 255 (s.news.gap + s.news.queue.length) ∧
    t.news.queue.map Prod.fst = t.journal.records.drop (t.journal.records.length - t.news.queue.length) ∧
    t.news.queue.length = (restartTells cause s).length ∧
    t.watch = [] ∧ (∀ e : EntryNo, t.checks[e] = none) ∧
    (∀ p : PointNo, t.points[p] =
      { s.points[p] with state := .unknown, startFailed := false, views := State.reset.points[p].views }) ∧
    t.marks.own = s.marks.own ∧ t.marks.outgoing = [] ∧ t.marks.notSent = 0 ∧
    t.marks.holds = s.marks.holds.map (fun h =>
      if h.state = .closed then { h with inUse := false }
      else { h with state := .closed, truncated := true, walk := none, deadline := none, inUse := false }) ∧
    (∀ l : DialNo, t.dials[l].defn = s.dials[l].defn ∧ t.dials[l].negative = s.dials[l].negative ∧
      t.dials[l].positionStep = s.dials[l].positionStep ∧
      t.dials[l].position = (if s.dials[l].state = .pulsing then none else s.dials[l].position) ∧
      t.dials[l].last = none ∧ t.dials[l].test = false ∧ t.dials[l].sensed = false ∧ t.dials[l].failed = 0 ∧
      t.dials[l].target = none ∧ t.dials[l].deadline = none ∧ t.dials[l].wait = none ∧
      (t.dials[l].state = .idle ∨ t.dials[l].state = .unset)) ∧
    t.query.answers = [] ∧ t.query.restartPending = false ∧ t.query.enables = s.query.enables ∧ t.query.cause = cause ∧
    t.query.latched = (liveMask t |||
      if ∃ l : DialNo, s.dials[l].state = .pulsing ∧ s.dials[l].position.isSome = true then 128 else 0) ∧
    t.config = { s.config with state := .reading, phase := .awaited, failures := 0, reason := .none } ∧
    t.settings = s.settings ∧ t.pending = s.pending

/-! ### Channels -/

/-- A channel under a sample that reads it at `level`, dated `d` (R69–R71, R74): a run or a start run begins at the first sample with a
level to run to, goes on while the samples read its level, and once it has lasted the filter time waits for its acceptance; a run of an
accepting channel ends at a sample of the other level, a start run then begins anew. -/
def sampled (c : Channel) (level : Level) (d : Date) (x : Channel) : Prop :=
  let fresh : Run := ⟨level, d, 0⟩
  x = { c with reading := x.reading, run := x.run } ∧
    (c.mode = .off → x = c) ∧ (c.mode ≠ .off → x.reading = some level) ∧
    (c.mode ≠ .off → c.run = none → x.run = if c.mode ≠ .starting ∧ c.accepted = some level then none else some fresh) ∧
    (∀ r, c.mode ≠ .off → c.run = some r → 10 * c.defn.filterMs ≤ r.age → x.run = some r) ∧
    (∀ r, c.mode ≠ .off → c.run = some r → r.age < 10 * c.defn.filterMs →
      x.run = if r.level = level then some { r with age := r.age + 1 }
        else if c.mode = .starting then some fresh else none)

/-- A channel settles at the end of the chatter second under way: the tenth in a row without a change (R80). -/
def settling (c : Channel) : Prop :=
  c.mode = .chattering ∧ c.changed = false ∧ 9 ≤ c.quietCount ∧ c.accepted.isSome = true

/-- The chatter second under way has ended with the latest sample (R78, R80). -/
def secondOverdue (s : State) : Prop :=
  ∃ x y, s.input.secondFrom = some x ∧ s.input.sampledAt = some y ∧ x + 10000000 ≤ y

/-- A channel's run has lasted the filter time, and no channel of a lower number has its record of this sample still to write: none waits for
its own acceptance, and none settles at the end of a chatter second that has come (R70, R75, R76). -/
def accepts (i : InputNo) (r : Run) (s : State) : Prop :=
  s.input.channels[i].run = some r ∧ 10 * s.input.channels[i].defn.filterMs ≤ r.age ∧
    ∀ j : InputNo, j < i → s.input.channels[j].awaits = false ∧
      ¬ (secondOverdue s ∧ settling s.input.channels[j])

/-- A channel after a change is accepted (R70). -/
def Channel.changedTo (c : Channel) (r : Run) : Channel :=
  { c with accepted := some r.level, run := none, lastChange := some r.first, changed := true }

/-- A channel after the acceptance of its run `r` under a chatter limit (R70, R72, R75, R78–R80). -/
def acceptedAs (limit : Nat) (c : Channel) (r : Run) (x : Channel) : Prop :=
  (c.mode = .starting → x =
      { c with
        mode := .normal, accepted := some r.level, run := none, chatterCount := 0, quietCount := 0, changed := false
        delivered := some (r.level, r.first) }) ∧
    (c.mode = .normal → c.chatterCount < limit → x =
      { c.changedTo r with
        chatterCount := c.chatterCount + 1
        delivered := if c.defn.pulse = true ∧ r.level = .inactive then c.delivered else some (r.level, r.first) }) ∧
    (c.mode = .normal → limit ≤ c.chatterCount →
      x = { c.changedTo r with mode := .chattering, chatterCount := 0, quietCount := 0 }) ∧
    (c.mode = .chattering → x = { c.changedTo r with quietCount := 0 })

/-- The state with one channel replaced. -/
def withChannel (i : InputNo) (c : Channel) (s : State) : State :=
  s.setInput { s.input with channels := setAt s.input.channels i c }

/-- One channel at the end of a chatter second (R78, R80): the chatter count of a NORMAL channel returns to 0; the tenth second in a row
without a change settles a CHATTERING one. -/
def secondOver (c x : Channel) (d : Date) : Prop :=
  (c.mode = .normal → x = { c with chatterCount := 0, changed := false }) ∧
    (c.mode = .off ∨ c.mode = .starting → x = c) ∧
    (c.mode = .chattering → c.changed = true → x = { c with changed := false }) ∧
    (c.mode = .chattering → c.changed = false → c.quietCount < 9 → x = { c with quietCount := c.quietCount + 1 }) ∧
    (∀ l, c.mode = .chattering → c.changed = false → 9 ≤ c.quietCount → c.accepted = some l →
      x = { c with mode := .normal, chatterCount := 0, quietCount := 0, delivered := some (l, d) })

/-- The acceptance of channel `i`'s run `r`, from `a` to `b` (R70, R72, R73, R75, R78–R80). A start run makes the channel NORMAL and writes an
initial INPUT record. In NORMAL the change counts; below the chatter limit INPUT is written, but for the end of a PULSE input's pulse, and
at the limit the channel becomes CHATTERING, INPUT is latched and CHATTER is written. In CHATTERING the quiet count returns to 0. Each record
is dated at the run's first sample and delivered. -/
def channelAccepts (i : InputNo) (r : Run) (a b : State) : Prop :=
  let c := a.input.channels[i]
  let x := c.changedTo r
  let silent := c.defn.pulse = true ∧ r.level = .inactive
  let below := c.chatterCount < a.settings.chatterLimit
  (c.mode = .starting →
      ∃ q, tells q .input r.first i.val (if r.level = .inactive then 2 else 3) none ∧ q.uncertain = false ∧
        wroteInput i q (withChannel i
          { c with
            mode := .normal, accepted := some r.level, run := none, chatterCount := 0, quietCount := 0, changed := false
            delivered := some (r.level, r.first) } a) b) ∧
    (c.mode = .normal → below → silent → b = withChannel i { x with chatterCount := c.chatterCount + 1 } a) ∧
    (c.mode = .normal → below → ¬ silent →
      ∃ q, tells q .input r.first i.val (levelNumber r.level) none ∧ q.uncertain = false ∧
        wroteInput i q (withChannel i
          { x with chatterCount := c.chatterCount + 1, delivered := some (r.level, r.first) } a) b) ∧
    (c.mode = .normal → ¬ below →
      b.query.latched.getLsbD 4 = true ∧
        ∃ q, tells q .chatter r.first i.val 0 (some (levelNumber r.level)) ∧ q.uncertain = false ∧
          wroteInput i q (withChannel i { x with mode := .chattering, chatterCount := 0, quietCount := 0 } a) b) ∧
    (c.mode = .chattering → b = withChannel i { x with quietCount := 0 } a)

/-- The end of a chatter second for channel `i`, from `a` to `b` (R76, R78, R80): a channel that settles writes SETTLED, dated at the latest sample,
and the record is delivered; any other is the only thing that changes. -/
def channelEnds (i : InputNo) (a b : State) : Prop :=
  ∃ x, secondOver a.input.channels[i] x a.input.sampleDate ∧
    (¬ settling a.input.channels[i] → b = withChannel i x a) ∧
    ∀ l, settling a.input.channels[i] → a.input.channels[i].accepted = some l →
      ∃ q, tells q .settled a.input.sampleDate i.val (levelNumber l) none ∧ q.uncertain = false ∧
        wroteInput i q (withChannel i x a) b

/-- Channel `i`'s turn at the end of a chatter second, from `a` to `b`: its end alone, or, where it takes its acceptance there, the two in either
order (log entry 9). The counter of free values may move. -/
def channelTurn (accepting : Prop) (i : InputNo) (a b : State) : Prop :=
  ∃ n, (¬ accepting → channelEnds i (a.setChoices n) b) ∧
    (accepting → ∀ r, a.input.channels[i].run = some r → ∃ m,
      (channelAccepts i r (a.setChoices n) m ∧ channelEnds i m b) ∨
        (channelEnds i (a.setChoices n) m ∧ channelAccepts i r m b))

/-- One channel's turn at the end of a chatter second: its end alone, or, where `accepting`, its acceptance with it in either order. -/
def secondTaken (limit : Nat) (accepting : Bool) (c x : Channel) (d : Date) : Prop :=
  (accepting = false → secondOver c x d) ∧
    (accepting = true → ∀ r, c.run = some r → ∃ m,
      (acceptedAs limit c r m ∧ secondOver m x d) ∨ (secondOver c m d ∧ acceptedAs limit m r x))

/-- The records that channels write (R73). -/
def ofChannels (rs : List Record) : List Record :=
  rs.filter fun r => r.kind == .input || r.kind == .chatter || r.kind == .settled

/-! ### Points and check entries -/

/-- A point wrote one outcome, dated at `date` and UNCERTAIN where `doubt` holds, entered a state, and the record was handed on to the check
entries of the point (R135, R144); `marked` tells what more came of it. -/
def pointTells (p : PointNo) (outcome : PointOutcome) (code : Nat) (value : Option Int) (date : Date) (doubt : Prop) (x : PointState)
    (marked : Record → State → Prop) (s t : State) : Prop :=
  t.points[p].state = x ∧
    ∃ q v, wroteFirst q s t ∧ tells q .point date p.val code value ∧ (q.uncertain = true ↔ doubt) ∧
      (∃ u, justWrote q (s.setPoints t.points) u ∧ deliveredToEntries p outcome x date u v) ∧ marked q v

/-- A point wrote an outcome that raises no mark, UNCERTAIN with its date's class alone. -/
def pointWrites (p : PointNo) (outcome : PointOutcome) (code : Nat) (value : Option Int) (date : Date) (x : PointState)
    (s t : State) : Prop :=
  pointTells p outcome code value date (doubtfulDate date = true) x (fun _ v => t = v) s t

/-- A point wrote LOST_DETECTION, BOTH_DETECTED, OVERTIME or FAILED_TO_START: a definition that asks for a mark raises one of reason POINT, 120 s
before and 60 s after the outcome's date, after the record; another raises none (R139). -/
def pointFails (p : PointNo) (dfn : PointDef) (outcome : PointOutcome) (code : Nat) (date : Date) (doubt : Prop) (x : PointState)
    (s t : State) : Prop :=
  pointTells p outcome code none date doubt x (fun q v =>
    (dfn.markOnFailure = true → raisedMark q 0 (byteOf p.val) date.time 120 60 s t) ∧
      (dfn.markOnFailure = false → t = v)) s t

/-- The movement that an outcome `q` ended was handed on to the check entries of the point, and counted (R137, R144): one more, or at the wrap 0,
where an interval above 0 sets service-due and writes SERVICE with the interval after the outcome, and an interval of 0 does nothing more. -/
def movementCounted (p : PointNo) (interval : Nat) (outcome : PointOutcome) (q : Record) (date : Date) (s t : State) : Prop :=
  ∃ points u v, justWrote q (s.setPoints points) u ∧ deliveredToEntries p outcome t.points[p].state date u v ∧
    (s.points[p].service < 16777215 → t.points[p].service = s.points[p].service + 1 ∧
      t.points[p].serviceDue = s.points[p].serviceDue ∧ t.journal = v.journal) ∧
    (s.points[p].service = 16777215 → t.points[p].service = 0 ∧
      (interval = 0 → t.points[p].serviceDue = s.points[p].serviceDue ∧ t.journal = v.journal) ∧
      (0 < interval → t.points[p].serviceDue = true ∧
        ∃ x, justWrote x (v.setPoints t.points) t ∧ tells x .service date p.val 0 (some interval)))

/-- A movement was set going from `s` to `t` by a record of date `loss` (R126, R127, R130, R133): MOVING with the call's date, and its stroke deadline;
where line time has reached that already, OVERTIME at once, dated at the deadline, after the record, with its mark where one is asked for. -/
def setsMoving (p : PointNo) (dfn : PointDef) (toward : Side) (call loss : Date) (s t : State) : Prop :=
  let due := loss.time + dfn.strokeMs * 1000
  let date : Date := ⟨due, s.clock.cls⟩
  (s.clock.lineTime < due → t.points[p].state = .moving toward call loss due ∧ t.journal = s.journal) ∧
    (due ≤ s.clock.lineTime →
      pointFails p dfn .overtime 4 date (doubtfulDate loss = true ∨ doubtfulDate date = true) (.overtime toward call loss) s t)

/-- A movement ended at a detection of date `found` with an outcome that carries its stroke, MOVED, MOVED_SLOW or MOVED_LATE (R129, R131, R134, R135):
the point is DETECTED there, its stroke and its operate time are worked out, and the movement is counted (R137). -/
def movementTimed (p : PointNo) (dfn : PointDef) (side : Side) (outcome : PointOutcome) (code : Nat) (call loss found : Date) (s t : State) :
    Prop :=
  let stroke := min 2147483647 ((found.time - loss.time) / 1000)
  (∃ q, wroteFirst q s t ∧ tells q .point found p.val code (some stroke) ∧
    (q.uncertain = true ↔ doubtfulDate call = true ∨ doubtfulDate loss = true ∨ doubtfulDate found = true ∨
      found.time < loss.time ∨ found.time < call.time) ∧
    movementCounted p dfn.interval outcome q found s t) ∧
    t.points[p].state = .detected side ∧ t.points[p].lastStroke = some stroke ∧
    t.points[p].lastOperate = some (min 2147483647 ((found.time - call.time) / 1000)) ∧
    t.points[p].service = (s.points[p].service + 1) % 16777216

/-- A reference of a point that is not UNKNOWN took a record that gives it the level `level` (R121, R125–R133, R138): its view takes the level and
the date; the same level changes nothing more; the other level, a level change, acts as the point's state says. A change of a call clears the
start-failed flag, also where it makes no transition. -/
def referenceTaken (p : PointNo) (dfn : PointDef) (ref : Ref) (level : Level) (date : Date) (s t : State) : Prop :=
  let pt := s.points[p]
  let views := pt.views.put ref (.known level date)
  let changes := fun (x : Ref) (after : Level) =>
    ref = x ∧ level = after ∧ ∃ before l, pt.views.at ref = .known l before ∧ l ≠ after
  let standing := fun (x : Ref) (call : Date) => pt.views.at x = .known .active call
  let doubtful := doubtfulDate date = true
  let heedless := fun x : Point => t.points = setAt s.points p x ∧ onlyChanges [.points, .alarms] s t
  t.points[p].views = views ∧
    (∀ before, pt.views.at ref = .known level before → heedless { pt with views := views }) ∧
    (∀ side, pt.state = .detected side → changes side.other.call .active →
      let due := date.time + dfn.startMs * 1000
      let expired : Date := ⟨due, s.clock.cls⟩
      (s.clock.lineTime < due → t.points[p].state = .called side.other date due ∧ t.points[p].startFailed = false ∧
        t.journal = s.journal) ∧
        (due ≤ s.clock.lineTime → t.points[p].startFailed = true ∧
          pointFails p dfn .failedToStart 5 expired (doubtful ∨ doubtfulDate expired = true) (.detected side) s t)) ∧
    (∀ side, pt.state = .detected side → (∃ l, changes side.call l) ∨ changes side.other.call .inactive →
      heedless { pt with views := views, startFailed := false }) ∧
    (∀ side call, pt.state = .detected side → changes side.detection .inactive → standing side.other.call call →
      setsMoving p dfn side.other call date s t) ∧
    (∀ side, pt.state = .detected side → changes side.detection .inactive → (∀ call, ¬ standing side.other.call call) →
      pointFails p dfn .lostDetection 6 date doubtful .lost s t) ∧
    (∀ side, pt.state = .detected side → changes side.other.detection .active →
      pointFails p dfn .bothDetected 8 date doubtful .both s t) ∧
    (∀ toward call d, pt.state = .called toward call d → changes toward.call .inactive →
      t.points[p].state = .detected toward.other ∧ t.points[p].startFailed = false ∧ t.journal = s.journal) ∧
    (∀ toward call d l, pt.state = .called toward call d → changes toward.other.call l →
      heedless { pt with views := views, startFailed := false }) ∧
    (∀ toward call d, pt.state = .called toward call d → changes toward.other.detection .inactive →
      setsMoving p dfn toward call date s t) ∧
    (∀ toward call d, pt.state = .called toward call d → changes toward.detection .active →
      pointFails p dfn .bothDetected 8 date doubtful .both s t) ∧
    (∀ toward call loss d, pt.state = .moving toward call loss d → changes toward.detection .active → pt.service ≤ 16777215 →
      let stroke := min 2147483647 ((date.time - loss.time) / 1000)
      let uncertain := doubtfulDate call = true ∨ doubtfulDate loss = true ∨ doubtful ∨ date.time < loss.time ∨ date.time < call.time
      let slow := 4 ≤ (pt.trend toward).count ∧ ∃ v, (pt.trend toward).value = some v ∧ v * 5 < stroke * 4
      (slow → movementTimed p dfn toward .movedSlow 1 call loss date s t) ∧
        (¬ slow → movementTimed p dfn toward .moved 0 call loss date s t) ∧
        t.points[p].trend toward.other = pt.trend toward.other ∧
        (uncertain → t.points[p].trend toward = pt.trend toward) ∧
        (¬ uncertain → (t.points[p].trend toward).count = min 255 ((pt.trend toward).count + 1) ∧
          ((pt.trend toward).value = none → (t.points[p].trend toward).value = some stroke) ∧
          ∀ v, (pt.trend toward).value = some v →
            ∃ w : Nat, (t.points[p].trend toward).value = some w ∧ roundsTo ((stroke : Int) - v) 8 ((w : Int) - v))) ∧
    (∀ toward call loss d, pt.state = .moving toward call loss d → changes toward.other.detection .active → pt.service ≤ 16777215 →
      (∃ q, wroteFirst q s t ∧ tells q .point date p.val 3 none ∧ (q.uncertain = true ↔ doubtfulDate loss = true ∨ doubtful) ∧
        movementCounted p dfn.interval .returned q date s t) ∧
        t.points[p].state = .detected toward.other ∧ t.points[p].trendNormal = pt.trendNormal ∧
        t.points[p].trendReverse = pt.trendReverse ∧ t.points[p].service = (pt.service + 1) % 16777216) ∧
    (∀ (toward side : Side) (call loss : Date), pt.state = .overtime toward call loss → changes side.detection .active →
      pt.service ≤ 16777215 →
        movementTimed p dfn side .movedLate 2 call loss date s t ∧ t.points[p].trendNormal = pt.trendNormal ∧
          t.points[p].trendReverse = pt.trendReverse) ∧
    (∀ (side : Side) (l : Level), changes side.call l →
      ((∃ toward call loss d, pt.state = .moving toward call loss d) ∨ (∃ toward call loss, pt.state = .overtime toward call loss) ∨
        pt.state = .lost ∨ pt.state = .both) →
      heedless { pt with views := views, startFailed := false }) ∧
    (∀ side : Side, pt.state = .lost → changes side.detection .active →
      pointWrites p .detectionRestored 7 none date (.detected side) s t) ∧
    (∀ side : Side, pt.state = .both → changes side.detection .inactive →
      pointWrites p .detectionRestored 7 none date (.detected side.other) s t)

/-- The references of a definition that name a pair, in reference order (R120, R125). -/
def referencesOf (dfn : PointDef) (station : Station) (input : InputNo) : List Ref :=
  [.normalCall, .reverseCall, .normalDetection, .reverseDetection].filter fun ref => decide (dfn.refs.at ref = (station, input))

/-- Several references' views, each replaced by one condition (R121, R125). -/
def viewsWith (refs : List Ref) (c : Condition) (views : Four Condition) : Four Condition :=
  refs.foldl (fun v ref => v.put ref c) views

/-- A point in UNKNOWN took a record that gives references of it a level (R122, R123): with one of the four not known after it, its views alone
changed; with all known, the point became KNOWN in the state that its two detections give. -/
def sightGained (p : PointNo) (refs : List Ref) (level : Level) (date : Date) (s t : State) : Prop :=
  let views := viewsWith refs (.known level date) s.points[p].views
  let active := fun side : Side => ∃ d, views.at side.detection = .known .active d
  let known := ∀ x : Ref, ∃ l d, views.at x = .known l d
  (¬ known → t.points = setAt s.points p { s.points[p] with views := views } ∧ onlyChanges [.points, .alarms] s t) ∧
    (known → t.points[p].views = views ∧
      (active .normal → ¬ active .reverse → pointWrites p .known 10 (some 0) date (.detected .normal) s t) ∧
      (¬ active .normal → active .reverse → pointWrites p .known 10 (some 1) date (.detected .reverse) s t) ∧
      (active .normal → active .reverse → pointWrites p .known 10 (some 6) date .both s t) ∧
      (¬ active .normal → ¬ active .reverse → pointWrites p .known 10 (some 5) date .lost s t))

/-- A point that was not UNKNOWN lost sight of references: their views are no longer KNOWN, the point is UNKNOWN with no start-failed flag, and
POINT UNKNOWN was written (R122). -/
def losesSight (p : PointNo) (refs : List Ref) (c : Condition) (date : Date) (s t : State) : Prop :=
  pointWrites p .unknown 9 none date .unknown s t ∧ t.points[p].startFailed = false ∧
    t.points[p].views = viewsWith refs c s.points[p].views

/-- An active check entry took a delivery or a report that gives its subject a view, and, where it matches, the match of its date: one within the
window of an OPEN or MATCHED entry is held where it is the first or the earliest, with its decision deadline (R145, R150–R152). -/
def entryTakes (e : EntryNo) (c : CheckEntry) (view : SubjectView) (matching : Prop) (date : Date) (s t : State) : Prop :=
  let inPhase := c.phase = .opened ∨ c.phase = .matched
  let seen : CheckEntry := { c with view := view, doubt := c.doubt || decide (inPhase ∧ view ≠ .known) }
  let held := matching ∧ inPhase ∧ c.openAt ≤ date.time ∧ date.time ≤ c.closeAt ∧
    ∀ d, c.held = some d → date.time < d.time
  (¬ held → t = setEntry e (some seen) s) ∧
    (held → s.clock.lineTime < date.time + c.settle * 1000000 →
      t = setEntry e (some
        { seen with phase := .matched, held := some date, deadline := some (date.time + c.settle * 1000000) }) s) ∧
    (held → date.time + c.settle * 1000000 ≤ s.clock.lineTime →
      ∃ r, wroteFirst r s t ∧ r.kind = .check ∧ r.date = date ∧ r.subject = byteOf e.val)

/-! ### Queries -/

/-- A query of the command `c` was answered with a result and no data, and nothing else happened (R192). -/
def refused (c : Instr) (q : QueryForm) (result : Result) (s : State) : Prop :=
  ∃ t, exec c s = .next t ∧ onlyAnswered q (answerTo q.source q.tag q.kind result []) s t ∧ t.journal = s.journal

/-! ### Status pages -/

/-- Fields in turn, each as its bytes and its value, in two's complement; a field that is none has the value −1, all its bytes at their
highest (R194). -/
def spelt (fields : List (Nat × Int)) : List Byte := fields.flatMap fun f => beInt f.1 f.2

/-- The value of a field that may be none. -/
def orNone {α : Type} (f : α → Int) : Option α → Int
  | none => -1
  | some x => f x

/-- A flag's value. -/
def flagValue (b : Bool) : Int := if b then 1 else 0

/-- A date's fields, time and class, or none. -/
def dateFields (d : Option Date) : List (Nat × Int) :=
  [(7, orNone (fun d => (d.time : Int)) d), (1, orNone (fun d => (d.cls.number : Int)) d)]

/-- The value of a level: 0 INACTIVE, 1 ACTIVE (R65). -/
def levelValue : Level → Int
  | .inactive => 0
  | .active => 1

/-- Page 0 (R195). -/
def pageZero (s : State) : List (Nat × Int) :=
  [(2, 316), (1, 2), (1, (own s).val), (1, causeCode s.query.cause), (1, configNumber s.config.state),
    (1, unusableNumber s.config.reason), (2, s.config.check.toNat), (2, (liveMask s).toNat), (2, s.query.latched.toNat),
    (2, s.query.enables.toNat), (1, flagValue (standingAlarm s))]

/-- Page 1: the clock unit's fields (R21), then the agreement unit's (R44). -/
def pageOne (s : State) : List (Nat × Int) :=
  [(7, s.clock.lineTime), (1, s.clock.cls.number), (4, s.clock.trim), (4, s.clock.slew),
    (1, flagValue s.clock.fastSlewEnd.isSome),
    (8, orNone (fun x : OscTime => (((x - s.clock.osc) / 10 : Nat) : Int)) s.clock.fastSlewEnd), (8, orNone id s.clock.lastC),
    (1, portNumber s.port.state), (1, s.port.count), (8, orNone id s.port.offset),
    (1, agreementCode s.agree.state), (1, s.agree.lockCount), (1, s.agree.disputeCount), (1, s.agree.emptyCount),
    (1, s.settings.interval), (1, s.settings.delay), (1, s.settings.thresholdMs),
    (1, orNone (fun m => flagValue m.noPeer) s.agree.lastSet),
    (1, orNone (fun c : ClockClass => (c.number : Int)) (s.agree.lastSet.bind MemberSummary.best)),
    (1, orNone (fun m => (m.count : Int)) s.agree.lastSet), (8, orNone id s.agree.lastMidpoint)]

/-- Page 2, one station: its peer table entry (R44), then what the news unit heard of it (R118). -/
def pageTwo (s : State) (i : Station) : List (Nat × Int) :=
  [(1, orNone (fun c : ClockClass => (c.number : Int)) s.agree.peers[i].cls), (8, orNone id s.agree.peers[i].offset),
    (1, flagValue s.agree.peers[i].heard), (1, s.agree.peers[i].streak), (1, flagValue s.agree.peers[i].outlier),
    (2, orNone (fun x : BitVec 16 => (x.toNat : Int)) s.news.lastSequence[i]), (1, s.news.silence[i]),
    (1, flagValue (s.news.silence[i] == 3))]

/-- Page 3, the line counters (R62) and the journal (R90). -/
def pageThreeFirst (s : State) : List (Nat × Int) :=
  let shown := fun n : JournalNo => if s.journal.records = [] then (-1 : Int) else n.toNat
  [(2, s.line.counters.sent), (2, s.line.counters.mismatches), (2, s.line.counters.discards),
    (2, s.line.counters.checkFailures), (2, s.line.counters.duplicates), (2, s.line.counters.queriesDropped),
    (4, shown (newestNumber s.journal)), (4, shown (oldestNumber s.journal)), (2, s.journal.records.length)]

/-- Page 3, the history reader (R102). -/
def pageThreeReader : Option Read → List (Nat × Int)
  | none => [(1, 0), (13, -1)]
  | some rd =>
    let source : List (Nat × Int) := match rd.source with
      | .journal => [(1, 0), (1, -1), (1, -1)]
      | .hold o n => [(1, 1), (1, o.val), (1, n.toNat)]
    [(1, (readModeNumber rd.mode : Int)), (1, rd.requester.val), (1, rd.tag.toNat)] ++ source ++
      [(4, (rd.next.toNat : Int)), (2, rd.remaining), (2, rd.skipped)]

/-- Page 3, the news unit (R118). -/
def pageThreeNews (s : State) : List (Nat × Int) :=
  [(2, s.news.counters.sent), (2, s.news.counters.discarded), (2, s.news.counters.refused), (2, s.news.counters.gapsHeard),
    (1, s.news.gap), (2, s.news.nextSequence.toNat), (1, s.news.queue.length), (1, s.settings.watermark),
    (1, senderNumber s.news.sender), (2, orNone (fun x : BitVec 16 => (x.toNat : Int)) (senderSequence s.news.sender)),
    (4, orNone (fun n : JournalNo => (n.toNat : Int)) s.news.flushTarget)]

/-- Page 3, one watch table entry (R118). -/
def pageThreeWatch (w : WatchEntry) : List (Nat × Int) :=
  let known : List (Nat × Int) := match w.condition with
    | .known l d => (1, levelValue l) :: dateFields (some d)
    | _ => (1, -1) :: dateFields none
  [(1, (w.station.val : Int)), (1, w.input.val), (2, w.refs), (1, conditionNumber w.condition)] ++ known

/-- Page 3. -/
def pageThree (s : State) : List (Nat × Int) :=
  pageThreeFirst s ++ pageThreeReader s.reader ++ pageThreeNews s ++ s.watch.flatMap pageThreeWatch

/-- Page 4, one channel (R82). -/
def pageFour (c : Channel) : List (Nat × Int) :=
  [(1, flagValue c.defn.enabled), (1, flagValue c.defn.inverted), (1, flagValue c.defn.pulse), (1, c.defn.filterMs),
    (1, channelModeNumber c.mode), (1, orNone levelValue c.reading), (1, orNone levelValue c.accepted),
    (1, flagValue c.run.isSome), (1, orNone (fun r => levelValue r.level) c.run)] ++ dateFields (c.run.map Run.first) ++
    dateFields c.lastChange ++
    [(1, if c.mode = .normal then (c.chatterCount : Int) else -1),
      (1, if c.mode = .chattering then (c.quietCount : Int) else -1)]

/-- Page 5, one hold (R177). -/
def pageFiveHold (h : Hold) : List (Nat × Int) :=
  [(1, h.mark.originator.val), (1, h.mark.number.toNat), (1, h.mark.reason.toNat), (1, h.mark.subject.toNat),
    (7, h.mark.time), (2, h.mark.pre), (2, h.mark.post), (7, h.start), (7, h.stop), (1, h.cls.number),
    (1, holdStateNumber h.state), (1, flagValue h.truncated), (1, flagValue h.isPartial), (1, flagValue h.closeDue),
    (1, flagValue h.inUse), (2, h.records.length), (4, orNone (fun n : JournalNo => (n.toNat : Int)) h.walk)]

/-- Page 5: the mark unit, then each hold (R177). -/
def pageFive (s : State) : List (Nat × Int) :=
  [(1, (s.marks.own.toNat : Int)), (1, s.marks.outgoing.length), (2, s.marks.notSent), (1, s.marks.holds.length),
    (2, storeCount s.marks.holds)] ++ s.marks.holds.flatMap pageFiveHold

/-- The fields of a page, in their order and widths (R194). -/
def pageLayout (page : Nat) (s : State) : List (Nat × Int) :=
  match page with
  | 0 => pageZero s
  | 1 => pageOne s
  | 2 => (List.finRange 32).flatMap (pageTwo s)
  | 3 => pageThree s
  | 4 => s.input.channels.toList.flatMap pageFour ++ [(1, (s.settings.chatterLimit : Int))]
  | _ => pageFive s

/-! ### Answers that report one thing, and the arguments of POST CHECK -/

/-- READ POINT, one reference (R140): its pair, its view's condition, its level, free where the view is not KNOWN (log entry 16), and the view's
date, 0 where it is not. -/
def viewLayout (free : Int) (ref : Station × InputNo) (c : Condition) : List (Nat × Int) :=
  let shown : List (Nat × Int) := match c with
    | .known l d => (1, levelValue l) :: dateFields (some d)
    | _ => [(1, free), (8, 0)]
  [(1, (ref.1.val : Int)), (1, ref.2.val), (1, conditionNumber c)] ++ shown

/-- READ POINT (R140). `free` stands for the contents that no rule states (log entry 16). -/
def pointLayout (free : Nat → Int) (d : PointDef) (x : Point) : List (Nat × Int) :=
  let toward : Side → Int := fun side => if side = .normal then 1 else 2
  let moves : Int × Nat × Nat := match x.state with
    | .called side call _ => (toward side, call.time, 0)
    | .moving side call loss _ => (toward side, call.time, loss.time)
    | .overtime side call loss => (toward side, call.time, loss.time)
    | _ => (0, 0, 0)
  let flags := flagValue x.startFailed + 2 * flagValue x.alarm + 4 * flagValue x.serviceDue + 8 * flagValue d.markOnFailure
  let outcome : List (Nat × Int) := match x.lastOutcome with
    | some (o, date) => [(1, (pointCode o : Int)), (7, date.time)]
    | none => [(1, 255), (7, free 4)]
  let duration : Option Nat → Int → Int := fun v open' => match v with
    | some ms => ms
    | none => open'
  let trend : Trend → List (Nat × Int) := fun t => [(4, ((t.value.getD 0 : Nat) : Int)), (1, t.count)]
  [(1, (pointStateNumber x.state : Int)), (1, moves.1), (1, flags)] ++
    viewLayout (free 0) d.refs.normalCall x.views.normalCall ++ viewLayout (free 1) d.refs.reverseCall x.views.reverseCall ++
    viewLayout (free 2) d.refs.normalDetection x.views.normalDetection ++
    viewLayout (free 3) d.refs.reverseDetection x.views.reverseDetection ++
    [(7, (moves.2.1 : Int)), (7, moves.2.2)] ++ outcome ++
    [(4, duration x.lastStroke (free 5)), (4, duration x.lastOperate (free 6))] ++ trend x.trendReverse ++ trend x.trendNormal ++
    [(3, (x.service : Int)), (3, d.interval), (2, d.startMs), (2, d.strokeMs)]

/-- READ CHECK (R160). `free` stands for the station of a POINT subject, which no rule states (log entry 16). -/
def checkLayout (free : Int) (c : CheckEntry) : List (Nat × Int) :=
  let phase : Int := match c.phase with
    | .waiting => 1
    | .opened => 2
    | .matched => 3
    | .done => 4
  let subject : List (Nat × Int) := match c.subject with
    | .input station input edge => [(1, 0), (1, station.val), (1, input.val), (1, match edge with
        | .toActive => 0
        | .toInactive => 1
        | .any => 2)]
    | .point p side => [(1, 1), (1, free), (1, p.val), (1, if side = .normal then 0 else 1)]
  let wasUncertain := match c.last with
    | some l => l.uncertain
    | none => false
  let flags := flagValue c.markOnMiss + 2 * flagValue c.doubt + 4 * flagValue (decide (c.view ≠ .known)) +
    8 * flagValue wasUncertain
  [(1, phase)] ++ subject ++
    [(7, (c.due : Int)), (7, c.openAt), (7, c.closeAt), (2, c.earlyTolerance), (2, c.lateTolerance), (3, c.period),
      (1, c.repeatsLeft), (1, flags)] ++
    (match c.held with
      | some d => dateFields (some d)
      | none => [(8, 0)]) ++
    (match c.last with
      | some l => [(1, (checkCode l.outcome : Int)), (4, l.tenths)]
      | none => [(1, 255), (4, 0)])

/-- READ DIAL (R190). (The wait is given in whole ms rounded down, log entry 18.) -/
def dialLayout (d : Dial) (osc : OscTime) : List (Nat × Int) :=
  let state : Int := match d.state with
    | .unset => 0
    | .noTime => 1
    | .idle => 2
    | .pulsing => 3
    | .catchingUp => 4
    | .holding => 5
    | .fault => 6
  let face := if d.defn.step = 60 then 720 else 1440
  let shown : Int × Int × Int := match d.position, d.target with
    | some p, some x => (p, x, ((x + face - p) % face : Nat))
    | some p, none => (p, 65535, 0)
    | none, _ => (65535, 65535, 0)
  let wait : Int := match d.wait with
    | some w => (((w - osc) / 10000 : Nat) : Int)
    | none => 0
  [(1, flagValue d.defn.enabled), (1, d.defn.step), (1, state), (2, shown.1), (1, flagValue d.negative), (2, shown.2.1),
    (2, shown.2.2), (1, d.failed), (1, flagValue (d.state == .pulsing && d.test)), (2, d.defn.widthMs), (2, d.defn.spacingMs),
    (4, wait)]

/-- The fields of a POST CHECK as they are taken from its 23 argument bytes (R65, R146). `u1 k` is byte k, and `u2 k` and `u3 k` are the numbers in
two and three bytes from byte k on. -/
def postingLaidOut (u1 u2 u3 : Nat → Nat) (p : Posting) : Prop :=
  p.entry.val = u1 0 ∧
    (∀ station input edge, p.subject = some (.input station input edge) ↔
      u1 1 = 0 ∧ station.val = u1 2 ∧ input.val = u1 3 ∧
        ((edge = .toActive ∧ u1 4 = 0) ∨ (edge = .toInactive ∧ u1 4 = 1) ∨ (edge = .any ∧ u1 4 = 2))) ∧
    (∀ point side, p.subject = some (.point point side) ↔
      u1 1 = 1 ∧ point.val = u1 3 ∧ ((side = .normal ∧ u1 4 = 0) ∨ (side = .reverse ∧ u1 4 = 1))) ∧
    p.dueSecond = u3 7 ∧ p.due = u2 5 * 86400000000 + u3 7 * 1000000 ∧
    p.watchBefore = min 14400 (u2 10) ∧ p.watchAfter = min 14400 (u2 12) ∧
    p.earlyTolerance = min p.watchBefore (u2 14) ∧ p.lateTolerance = min p.watchAfter (u2 16) ∧
    p.period = (if u3 18 = 0 then 0 else max 60 (min 86400 (u3 18))) ∧ p.repeats = u1 21 ∧
    (p.markOnMiss = true ↔ u1 22 % 2 = 1) ∧
    p.openAt = p.due - p.watchBefore * 1000000 ∧ p.closeAt = p.due + p.watchAfter * 1000000

/-- What POST CHECK refuses as its subject (R147): an undefined point, or an input of the station's own that is not enabled. -/
def subjectBarred (s : State) : Subject → Prop
  | .input station input _ => station = own s ∧ s.input.channels[input].defn.enabled = false
  | .point p _ => s.points[p].defn = none

/-- The remote pair on which a subject needs a watch reference (R116, R144). -/
def pairNeeded (s : State) : Subject → Option (Station × InputNo)
  | .input station input _ => if station = own s then none else some (station, input)
  | .point _ _ => none

/-- The watch table has an entry of a pair. -/
def watched (x : Station × InputNo) (watch : List WatchEntry) : Prop := ∃ w ∈ watch, (w.station, w.input) = x

/-- The watch table after one more reference on a pair (R113, R116): its entry counts one more, or a new one was made, NEVER_HEARD with count 1. -/
def referenceAdded (x : Station × InputNo) (before after : List WatchEntry) : Prop :=
  (watched x before →
      after = before.map fun w => if (w.station, w.input) = x then { w with refs := w.refs + 1 } else w) ∧
    (¬ watched x before → ∃ low high, before = low ++ high ∧
      after = low ++ { station := x.1, input := x.2, refs := 1, condition := .neverHeard } :: high)

/-- The watch table after one reference on a pair was given back (R116): its entry counts one less, and goes at 0. -/
def referenceGivenBack (x : Station × InputNo) (watch : List WatchEntry) : List WatchEntry :=
  watch.filterMap fun w =>
    if (w.station, w.input) = x then (if w.refs ≤ 1 then none else some { w with refs := w.refs - 1 }) else some w

/-- The view of a subject at its posting, with the watch table as it then stands (R77, R116, R149). -/
def viewAtPosting (s : State) (watch : List WatchEntry) : Subject → SubjectView
  | .point p _ => if s.points[p].state = .unknown then .unknown else .known
  | .input station input _ =>
    if station = own s then
      match s.input.channels[input].mode, s.input.channels[input].delivered with
      | .chattering, _ => .chattering
      | .normal, some _ => .known
      | _, _ => .neverHeard
    else
      match (watch.find? fun w => decide ((w.station, w.input) = (station, input))).map WatchEntry.condition with
      | some (.known _ _) => .known
      | some .uncertain => .uncertain
      | some .chattering => .chattering
      | _ => .neverHeard

/-! ### Impulse lines -/

/-- Positions of a face, and of its hold zone (R179). -/
def faceAndZone (d : DialDef) : Nat × Nat := if d.step = 60 then (720, 60) else (1440, 120)

/-- `e` is the line `d`, at position `p` with target `x`, once evaluated at an oscillator moment (R182, R184): IDLE at its target; HOLDING
within the hold zone ahead of it; else a pulse at once where none was made, where it is one step behind and the last pulse succeeded, or
where one catch-up spacing has passed since the last pulse's start; else CATCHING_UP until then. -/
def evaluatedAt (osc : OscTime) (p x : Nat) (d e : Dial) : Prop :=
  let n := (faceAndZone d.defn).1
  let zone := (faceAndZone d.defn).2
  let b := (x + n - p) % n
  let pulse : Dial := { d with state := .pulsing, test := false, sensed := false, last := some (osc, false), wait := none }
  (b = 0 → e = { d with state := .idle, wait := none }) ∧
    (b ≠ 0 → n - b ≤ zone → e = { d with state := .holding, wait := none }) ∧
    (b ≠ 0 → zone < n - b → d.last = none → e = pulse) ∧
    (∀ start succeeded, b ≠ 0 → zone < n - b → d.last = some (start, succeeded) →
      ((b = 1 ∧ succeeded = true) ∨ start + d.defn.spacingMs * 10000 ≤ osc → e = pulse) ∧
        (¬ ((b = 1 ∧ succeeded = true) ∨ start + d.defn.spacingMs * 10000 ≤ osc) →
          e = { d with state := .catchingUp, wait := some (start + d.defn.spacingMs * 10000) }))

/-- The state with one impulse line replaced. -/
def withDial (l : DialNo) (d : Dial) (s : State) : State := s.setDials (setAt s.dials l d)

/-- A line whose pulse has run its width, with the start of that pulse (R184, R185). -/
def pulseRan (l : DialNo) (start : OscTime) (s : State) : Prop :=
  s.dials[l].state = .pulsing ∧ (∃ b, s.dials[l].last = some (start, b)) ∧
    start + s.dials[l].defn.widthMs * 10000 ≤ s.clock.osc

/-- A line after a pulse that moved the dial one step (R185). -/
def Dial.stepped (d : Dial) (start : OscTime) : Dial :=
  { d with
    position := d.position.map fun p => (p + 1) % (faceAndZone d.defn).1
    negative := !d.negative, failed := 0, test := false, last := some (start, true) }

/-! ### The configuration read -/

/-- A record of 838 bytes read by its layout (R200), each field taken as its own rule clamps it (R4, R22, R25, R31, R46, R66, R105, R120, R143, R179).
`u1 k` is byte k and `u2 k` the number in bytes k and k + 1. -/
def recordLaidOut (u1 u2 : Nat → Nat) (r : ConfigRecord) : Prop :=
  let flag := fun k => decide (u1 k ≠ 0)
  let trim : Int := if u2 10 < 32768 then u2 10 else (u2 10 : Int) - 65536
  r.settings =
      { bitRate := if u2 5 < 375 then 250 else if u2 5 < 750 then 500 else 1000
        interval := if u1 7 < 6 then 4 else if u1 7 < 12 then 8 else 16
        delay := u1 8, thresholdMs := max 1 (min 100 (u1 9)), watermark := max 1 (min 8 (u1 12))
        settle := max 1 (min 10 (u1 13)), chatterLimit := max 2 (min 50 (u1 14)), referenceFitted := flag 15 } ∧
    r.initialTrim = max (-20000) (min 20000 trim) ∧ r.enables = BitVec.ofNat 11 (u2 16) ∧
    (∀ i : InputNo,
      let k := 18 + 4 * i.val
      r.inputs[i] = { enabled := flag k, inverted := flag (k + 1), pulse := decide (u1 (k + 2) = 1)
                      filterMs := max 1 (min 250 (u1 (k + 3))) }) ∧
    (∀ p : PointNo,
      let k := 274 + 17 * p.val
      let pair := fun j : Nat => ((Fin.ofNat 32 (min 31 (u1 j)), Fin.ofNat 64 (min 63 (u1 (j + 1)))) : Station × InputNo)
      r.points[p] = if u1 k = 0 then none else some
        { refs := { normalCall := pair (k + 1), reverseCall := pair (k + 3), normalDetection := pair (k + 5)
                    reverseDetection := pair (k + 7) }
          startMs := max 100 (min 5000 (u2 (k + 9))), strokeMs := max 1000 (min 20000 (u2 (k + 11)))
          interval := u1 (k + 13) * 65536 + u2 (k + 14), markOnFailure := flag (k + 16) }) ∧
    ∀ l : DialNo,
      let k := 818 + 5 * l.val
      let width := max 100 (min 2000 (u2 (k + 2)))
      r.dials[l] =
        { enabled := flag k, step := if u1 (k + 1) < 45 then 30 else 60, widthMs := width
          spacingMs := max (max 1 (min 10 (u1 (k + 4))) * 1000) (width + 500) }

/-- The remote pairs that a definition names, in reference order (R115). -/
def remoteRefs (me : Station) (d : PointDef) : List (Station × InputNo) :=
  [d.refs.normalCall, d.refs.reverseCall, d.refs.normalDetection, d.refs.reverseDetection].filter fun x => decide (x.1 ≠ me)

/-- The remote pairs that the defined points of lower numbers name (R115). -/
def pairsNamedBelow (t : State) (p : PointNo) : List (Station × InputNo) :=
  ((List.finRange 32).filter fun q => decide (q < p)).flatMap fun q =>
    match t.points[q].defn with
    | some d => remoteRefs (own t) d
    | none => []

/-- Whether a point's definition names a remote pair (R115). -/
def namesPair (t : State) (p : PointNo) (x : Station × InputNo) : Bool :=
  match t.points[p].defn with
  | some d => (remoteRefs (own t) d).contains x
  | none => false

/-- Whether a check entry is active with an INPUT subject that is a pair (R116, R144). -/
def holdsPair (t : State) (e : EntryNo) (x : Station × InputNo) : Bool :=
  match t.checks[e] with
  | some c => decide (c.phase ≠ .done) && (match c.subject with
    | .input station input _ => decide ((station, input) = x)
    | .point _ _ => false)
  | none => false

/-- The watch table while the part runs (R113, R116): one entry for each remote pair that a definition or an active check entry names, with the number
of those that name it; before a configuration read has ended it is empty. -/
def watchAgrees (s : State) : Prop :=
  (s.config.phase ≠ .over → s.watch = []) ∧
    (s.config.phase = .over →
      (s.watch.map fun w => (w.station, w.input)).Nodup ∧
        (∀ w ∈ s.watch, w.station ≠ own s ∧ 0 < w.refs ∧
          w.refs = ((List.finRange 32).countP fun p => namesPair s p (w.station, w.input)) +
            (List.finRange 256).countP fun e => holdsPair s e (w.station, w.input)) ∧
        ∀ x : Station × InputNo, x.1 ≠ own s → (∃ p, namesPair s p x = true) ∨ (∃ e, holdsPair s e x = true) →
          ∃ w ∈ s.watch, (w.station, w.input) = x)

/-- The watch table as a read ends (R113, R115, R119): one entry for each remote pair that a defined point names, NEVER_HEARD, with the number of
definitions that name it. -/
def watchBuilt (t : State) : Prop :=
  (t.watch.map fun w => (w.station, w.input)).Nodup ∧
    (∀ w ∈ t.watch, w.condition = .neverHeard ∧ 0 < w.refs ∧
      w.refs = (List.finRange 32).countP fun p => namesPair t p (w.station, w.input)) ∧
    ∀ (p : PointNo) (x : Station × InputNo), namesPair t p x = true → ∃ w ∈ t.watch, (w.station, w.input) = x

/-- An impulse line `d` as a read ends at a date and an oscillator moment, and the line `e` it is then (R179, R181, R182, R191): it takes its settings;
without a position it is UNSET; one that is disabled or has another step loses its position; any other takes its target where the class
allows, and is evaluated. -/
def lineBegins (settings : DialDef) (date : Date) (osc : OscTime) (d e : Dial) : Prop :=
  let held := settings.enabled = true ∧ settings.step = d.positionStep
  let kept : Dial := { d with defn := settings }
  ((d.position = none ∨ ¬ held) →
      e = { kept with position := none, state := .unset, target := none, deadline := none, wait := none }) ∧
    ∀ x, d.position = some x → held → d.state = .idle →
      (date.cls = .unset → e = { kept with state := .noTime, target := none, deadline := none, wait := none }) ∧
        (date.cls ≠ .unset → ∃ due, date.time < due ∧ due ≤ date.time + settings.step * 1000000 ∧
          due % (settings.step * 1000000) = 0 ∧
          evaluatedAt osc x (targetAt settings date.time)
            { kept with target := some (targetAt settings date.time), deadline := some due } e)

/-- What a station runs with that has no usable record: the settings, and nothing enabled or defined (R201). -/
def unconfiguredValues (rec : ConfigRecord) : Prop :=
  rec.settings =
      { bitRate := 250, interval := 8, delay := 0, thresholdMs := 2, watermark := 4, settle := 2, chatterLimit := 20
        referenceFitted := false } ∧
    rec.initialTrim = 0 ∧ rec.enables = BitVec.allOnes 11 ∧ (∀ i : InputNo, rec.inputs[i].enabled = false) ∧
    (∀ p : PointNo, rec.points[p] = none) ∧ ∀ l : DialNo, rec.dials[l].enabled = false

/-- Every block has taken the settings of `rec` and begun, as the read ends. A point takes its definition, UNKNOWN with its views begun anew; its last
outcome, its last stroke and operate time and its trends are kept, and its service counter and service-due but for the preload of a power-on,
also where it is left undefined (R142) (R4, R12, R22, R23, R64, R66, R67, R115, R120, R137, R178,
R179, R191, R196, R199, R201). -/
def configured (rec : ConfigRecord) (config : ConfigUnit) (s t : State) : Prop :=
  t.config = config ∧ t.settings = rec.settings ∧ t.query.enables = rec.enables ∧
    t.clock = { s.clock with trim := if s.query.cause = .powerOn then rec.initialTrim else s.clock.trim } ∧
    (∀ i : InputNo, t.input.channels[i] =
      { s.input.channels[i] with
        defn := rec.inputs[i], mode := if rec.inputs[i].enabled then .starting else .off }) ∧
    (s.input.sampledAt = some s.clock.osc → t.input.secondFrom = some s.clock.osc ∧ t.input.secondAwaited = false) ∧
    (s.input.sampledAt ≠ some s.clock.osc → t.input.secondFrom = none ∧ t.input.secondAwaited = true) ∧
    t.line.running = true ∧ t.line.activity = .busy ∧ t.line.quietFrom = some s.clock.osc ∧
    t.port = { state := if rec.settings.referenceFitted then .searching else .notFitted
               partialDigits := none, complete := none, pending := none, count := 0, lastLabel := none, lossFrom := none
               offset := s.port.offset, pulseSeen := false } ∧
    t.agree = { s.agree with timerFrom := some s.clock.osc, phase := t.agree.phase } ∧
    (∃ p, t.agree.phase = some p ∧ s.clock.lineTime < p ∧ p ≤ s.clock.lineTime + 1000000 ∧
      p % 1000000 = (own t).val * 31250) ∧
    watchFits t ∧ watchBuilt t ∧
    (∀ p : PointNo,
      let kept : Point := { s.points[p] with service := t.points[p].service, serviceDue := t.points[p].serviceDue }
      (rec.points[p] = none → t.points[p] = { kept with defn := none, noRoom := false }) ∧
      (∀ d : PointDef, rec.points[p] = some d →
        let pairs := pairsNamedBelow t p ++ remoteRefs (own t) d
        (pairs.dedup.length ≤ 48 →
          t.points[p] = { kept with
            defn := some d, noRoom := false, state := .unknown, startFailed := false
            views := d.refs.map fun x =>
              if x.1 = own t ∧ rec.inputs[x.2].enabled = false then .off else .neverHeard }) ∧
        (48 < pairs.dedup.length → t.points[p] = { kept with defn := none, noRoom := true })) ∧
      (s.query.cause = .powerOn → t.points[p].serviceDue = false ∧
        t.points[p].service = (match t.points[p].defn with
          | some d => if d.interval = 0 then 0 else 16777216 - d.interval
          | none => 0)) ∧
      (s.query.cause ≠ .powerOn → t.points[p].serviceDue = s.points[p].serviceDue ∧
        t.points[p].service = s.points[p].service)) ∧
    (∀ l : DialNo, lineBegins rec.dials[l] (now s) s.clock.osc s.dials[l] t.dials[l]) ∧
    (∀ (l : DialNo) (x : Nat), s.dials[l].position = some x →
      ¬ (rec.dials[l].enabled = true ∧ rec.dials[l].step = s.dials[l].positionStep) → t.query.latched.getLsbD 7 = true) ∧
    (∃ rs, t.journal = s.journal.writeAll rs ∧ ∀ l : DialNo, ∀ x : Nat, s.dials[l].position = some x →
      ¬ (rec.dials[l].enabled = true ∧ rec.dials[l].step = s.dials[l].positionStep) →
        ∃ r ∈ rs, tells r .dial ⟨s.clock.lineTime, s.clock.cls⟩ l.val 3 (some x)) ∧
    onlyChanges [.config, .settings, .query, .clock, .input, .line, .port, .agree, .watch, .points, .dials, .journal,
      .news, .reader, .marks, .alarms, .choices] s t

end Sys2Proof.Machine
end

