-- ==== Sys2Proof/Certificates/Slice0/Obligations.lean ====
section
/-! DEFINITION. The statements for the provers. Each is about the model of Sys2Proof/Machine; its docstring names the rules of spec/ it
rests on, and a log entry where it says what the model chose. -/

open Sys2Proof Sys2Proof.Machine

/-! ### The step -/

/-- A step takes the command at the front of the queue and answers its outcome on the state with the queue's rest. -/
def Obligations.StepRunsTheFrontCommand : Prop :=
  ∀ (c : Instr) (rest : List Instr) (s : State), s.pending = c :: rest → step s = exec c (s.setPending rest)

/-- THE MODEL'S CHOICE (log entries 1, 3 and 12): on an empty queue the part goes on by itself. Where events of this moment are due, one of
them becomes the waiting command and nothing else changes but the counter of free values; where none is due a walk's visit does, or the
moment ends: its contention slot, where one begins with an eligible telegram, becomes the waiting command, and else one oscillator period
passes. So a contention slot comes after every other event of its moment, and what becomes WAITING then is considered at it; no visit
comes after a telegram has started in it. -/
def Obligations.AnEmptyQueueLetsThePartGoOn : Prop :=
  ∀ s : State, s.pending = [] →
    let becomes := fun (l : List Instr) (u t : State) => ∃ c ∈ l, t.pending = [c] ∧ onlyChanges [.pending, .choices] u t
    let movesOn := fun u t : State => (slotDue u = [] → t = period u) ∧ (slotDue u ≠ [] → becomes (slotDue u) u t)
    (due s ≠ [] → ∃ t, step s = .next t ∧ becomes (due s) s t) ∧
      (due s = [] → visits s = [] → ∃ t, step s = .next t ∧ movesOn s t) ∧
      (due s = [] → visits s ≠ [] →
        ∃ t, step s = .next t ∧ (movesOn (s.setChoices (s.choices + 1)) t ∨ becomes (visits s) s t)) ∧
      (∀ p : TelegramClass, Instr.contentionSlot p ∉ due s ∧ Instr.contentionSlot p ∉ visits s) ∧
      (∀ (k : TelegramClass) (x : OutTelegram) (n : Nat), lineSound s → s.line.slots[k] = .sending x n s.clock.osc →
        visits s = [])

/-- Right after power is applied every block stands at the power-on value that its chapter gives and every invariant holds. (That this is before the
RESTART record is written is log entry 4.) -/
def Obligations.ResetMeetsEveryInvariant : Prop :=
  powerOnValues State.reset ∧ alarmContact State.reset = true ∧
    clockSound State.reset ∧ classFollowsState State.reset ∧ agreementSound State.reset ∧ lineSound State.reset ∧
    tablesFit State.reset ∧ holdsDated State.reset ∧ watchAgrees State.reset ∧ journalOrdered State.reset ∧
    entriesSound State.reset ∧ pointsSound State.reset ∧ dialsSound State.reset ∧ quietWhileReading State.reset ∧
    latchedWhileLive State.reset

/-! ### Line time -/

/-- R3. While no fast slew runs, `n` oscillator periods add n × (1 + (trim + slew) / 1,000,000) × 0.1 µs to line time and its fraction,
exactly; while one runs, n × 0.05 µs, trim and slew set aside. (A unit is 10^-9 µs; the count does not reach its end.) The count
moves in single microseconds, and with the trim and the slew in their ranges the rate is within 700 ppm of nominal. -/
def Obligations.LineTimeCountsAtTheEffectiveRate : Prop :=
  ∀ (n : Nat) (s : State),
    let units := s.clock.lineTime * Config.fractionUnits + s.clock.fraction
    let t := period^[n] s
    clockSound s → t.clock.lineTime < Config.maxLineTime →
      t.clock.osc = s.clock.osc + n ∧
        (s.clock.fastSlewEnd = none →
          ((t.clock.lineTime * Config.fractionUnits + t.clock.fraction : Nat) : Int) =
              (units : Int) + n * (100000000 + s.clock.trim + s.clock.slew) ∧
            ((n : Int) * (100000000 + s.clock.trim + s.clock.slew) - n * 100000000).natAbs ≤ n * 70000) ∧
        (s.clock.fastSlewEnd ≠ none →
          t.clock.lineTime * Config.fractionUnits + t.clock.fraction = units + n * 50000000) ∧
        (period t).clock.lineTime ≤ t.clock.lineTime + 1

/-- The clock unit's numbers stay within the ranges the rules give them, whatever step is taken. -/
def Obligations.ClockStaysSound : Prop :=
  ∀ s t : State, clockSound s → step s = .next t → clockSound t

/-- Line time never decreases once the class has left UNSET, except that power is applied anew. -/
def Obligations.LineTimeNeverDecreases : Prop :=
  ∀ s t : State, clockSound s → classFollowsState s → s.clock.cls ≠ .unset → s.pending.head? ≠ some .powerOn →
    step s = .next t → s.clock.lineTime ≤ t.clock.lineTime ∧ t.clock.cls ≠ .unset

/-- R9. The four classes and their numbers, a higher number being worse; the class that each agreement state gives, at power-on, in a
warm restart and after every step; and a move between Acquiring and Holdover is no class change and writes nothing. -/
def Obligations.TheClassFollowsTheAgreementState : Prop :=
  (ClockClass.ref.number = 0 ∧ ClockClass.agreed.number = 1 ∧ ClockClass.drifting.number = 2 ∧
      ClockClass.unset.number = 3 ∧
      ∀ a b, betterClass (some a) b = some (if b.number < a.number then b else a)) ∧
    (∀ s, classFollowsState s ↔
      (s.clock.cls = .ref ∧ s.agree.state = .reference) ∨ (s.clock.cls = .agreed ∧ s.agree.state = .locked) ∨
        (s.clock.cls = .drifting ∧ (s.agree.state = .acquiring ∨ s.agree.state = .holdover)) ∨
        (s.clock.cls = .unset ∧ s.agree.state = .unset)) ∧
    (∀ s t, classFollowsState s → step s = .next t → classFollowsState t) ∧
    (∀ s t, exec .powerOn s = .next t → t.clock.cls = .unset) ∧
    (∀ s t, s.pins.restartEdge = true → exec .restartPin s = .next t →
      t.clock.cls = (if s.agree.state = .unset then .unset else .drifting) ∧ classFollowsState t) ∧
    (∀ s x, classFollowsState s → (s.agree.state = .acquiring ∨ s.agree.state = .holdover) →
      (x = .acquiring ∨ x = .holdover) →
        (enterAgreement x s).clock = s.clock ∧ (enterAgreement x s).journal = s.journal ∧
          (enterAgreement x s).agree.state = x)

/-- FAST_SLEW_END takes the fast slew away once its oscillator time has run, and BEACON_PHASE, once line time has reached the phase, sets
it one second later and puts a beacon into the class 0 slot unless one is on the line. Nothing else changes. A beacon on the line takes its
items in the oscillator period at whose end its start sequence ends, 8 bit-times after its start: the class, the agreement state, the
alarm-standing flag and line time as they then stand (log entry 7). -/
def Obligations.FastSlewEndAndBeaconPhase : Prop :=
  (∀ s x, s.clock.fastSlewEnd = some x → x ≤ s.clock.osc →
      ∃ t, exec .fastSlewEnd s = .next t ∧ t.clock = { s.clock with fastSlewEnd := none } ∧
        onlyChanges [.clock, .alarms] s t ∧ keepsLatches s t) ∧
    (∀ s p, s.agree.phase = some p → p ≤ s.clock.lineTime →
      ∃ t, exec .beaconPhase s = .next t ∧ t.agree = { s.agree with phase := some (p + 1000000) } ∧
        (s.line.slots[(0 : TelegramClass)].isSending = true → t.line = s.line) ∧
        (s.line.slots[(0 : TelegramClass)].isSending = false →
          t.line = { s.line with slots := setAt s.line.slots 0 (.waiting ⟨63, .beacon none⟩ 0) }) ∧
        onlyChanges [.agree, .line, .alarms] s t) ∧
    (∀ (s : State) (dest : BitVec 6) (n : Nat) (since : OscTime),
      s.line.slots[(0 : TelegramClass)] = .sending ⟨dest, .beacon none⟩ n since →
        let t := period s
        (t.clock.osc < since + 8 * bitPeriods s → t.line = s.line) ∧
          (since + 8 * bitPeriods s ≤ t.clock.osc →
            t.line = { s.line with
              slots := setAt s.line.slots 0 (.sending
                ⟨dest, .beacon (some
                  { cls := s.clock.cls, state := s.agree.state, alarm := alarmContact s, transmit := t.clock.lineTime })⟩
                n since) }) ∧
          onlyChanges [.clock, .line] s t)

/-! ### The reference port -/

/-- A message of the reference: T, five digits, five digits, carriage return, without framing errors, read character by character by
REFERENCE_CHARACTER whatever came before, is a complete message of that label where the label is in range, and none where it is not; a
framing error drops what has been read. Each character changes the reference port alone. REFERENCE_MESSAGE makes it the pending label with
the moment of its completion. -/
def Obligations.ReferenceMessagesAreRead : Prop :=
  (∀ (p : RefPort) (day second : Nat), day ≤ 99999 → second ≤ 99999 →
      (([byteOf 84] ++ labelDigits day second ++ [byteOf 13]).foldl (fun q c => q.receive c false) p) =
        { p with
          partialDigits := none
          complete := if day ≤ 65535 ∧ second ≤ 86399 then some ⟨day, second⟩ else none }) ∧
    (∀ (p : RefPort) (c : Byte), p.receive c true = { p with partialDigits := none }) ∧
    (∀ s c e, s.port.state ≠ .notFitted →
      ∃ t, exec (.referenceCharacter c e) s = .next t ∧ t.port = s.port.receive c e ∧ onlyChanges [.port, .alarms] s t) ∧
    (∀ s day second, s.port.state ≠ .notFitted → day ≤ 65535 → second ≤ 86399 →
      ∃ t, exec (.referenceMessage day second) s = .next t ∧
        t.port = { s.port with partialDigits := none, complete := none, pending := some (⟨day, second⟩, s.clock.osc) } ∧
        onlyChanges [.port, .alarms] s t)

/-- The third consecutive labelled pulse makes a SEARCHING port VALID. From a set station the class becomes REF, CLASS_CHANGE 0 is the
record written, the offset is held, and line time does not move; from an Unset one the offset moves line time as the first setting and is
not held, CLASS_CHANGE is dated after the move, and every impulse line with a position takes its target. (That CLASS_CHANGE comes before what
passed deadlines write is log entry 13; line time at 0 for a setting below 0 is log entry 24.) Before the third, a labelled pulse in SEARCHING
counts on where it is consecutive or no last label is held, and counts 1 where it is not; in VALID a consecutive one hands its offset over. -/
def Obligations.TheReferenceBecomesValid : Prop :=
  (∀ (s : State) (sampled : OscTime) (l : Label), labelledPulseAt sampled l s →
    let offset : Int := (l.day * 86400000000 + l.second * 1000000 : Nat) - (s.input.sampleDate.time : Int)
    let port : RefPort :=
      { s.port with
        pending := none, lastLabel := some l, lossFrom := some sampled, offset := some offset, pulseSeen := false }
    (s.port.state = .searching → follows s.port l → s.port.count < 2 →
      ∃ t, exec .referencePulse s = .next t ∧ t.port = { port with count := s.port.count + 1 } ∧
        onlyChanges [.port, .alarms] s t) ∧
    (s.port.state = .searching → ¬ follows s.port l →
      ∃ t, exec .referencePulse s = .next t ∧ t.port = { port with count := 1 } ∧ onlyChanges [.port, .alarms] s t) ∧
    (s.port.state = .valid → follows s.port l →
      ∃ t, exec .referencePulse s = .next t ∧ t.port = { port with count := min 3 (s.port.count + 1) } ∧
        t.agree = { s.agree with refOffset := some offset } ∧ onlyChanges [.port, .agree, .alarms] s t)) ∧
  ∀ (s : State) (sampled done : OscTime) (l last : Label),
    s.port.pulseSeen = true → s.port.state = .searching → s.input.sampledAt = some sampled →
    s.port.pending = some (l, done) → done + 1000000 ≤ sampled → s.port.lastLabel = some last → last.succ = some l →
    s.port.count = 2 → classFollowsState s → agreementSound s →
      let offset : Int := (l.day * 86400000000 + l.second * 1000000 : Nat) - (s.input.sampleDate.time : Int)
      let port : RefPort :=
        { s.port with
          state := .valid, pending := none, count := 3, lastLabel := some l, lossFrom := some sampled
          offset := some offset, pulseSeen := false }
      let agree : Agreement := { s.agree with state := .reference, lockCount := 0, disputeCount := 0, emptyCount := 0 }
      ∃ t r, exec .referencePulse s = .next t ∧ t.port = port ∧
        (s.clock.cls ≠ .unset →
          justWrote r
              (((s.setPort port).setAgree { agree with refOffset := some offset }).setClock { s.clock with cls := .ref }) t ∧
            tells r .clock ⟨s.clock.lineTime, .ref⟩ 0 2 (some 0)) ∧
        (s.clock.cls = .unset →
          t.clock = { s.clock with
              cls := .ref, lastC := some offset
              lineTime := min 72057594037927935 ((s.clock.lineTime : Int) + offset).toNat } ∧
            t.agree = { agree with refOffset := none, phase := t.agree.phase } ∧
            (s.agree.phase.isSome = true → ∃ p, t.agree.phase = some p ∧ t.clock.lineTime < p ∧
              p ≤ t.clock.lineTime + 1000000 ∧ p % 1000000 = (own s).val * 31250) ∧
            tookFirst r s t ∧ tells r .clock ⟨t.clock.lineTime, .ref⟩ 0 2 (some 0) ∧
            (∀ (i : DialNo) (x : Nat), s.dials[i].position = some x → t.dials[i].position = some x ∧
              t.dials[i].target = some (targetAt s.dials[i].defn t.clock.lineTime)) ∧
            onlyChanges [.clock, .port, .agree, .journal, .reader, .news, .line, .watch, .points, .checks, .marks, .dials,
              .choices, .alarms] s t)

/-- A VALID port loses the reference when its loss timer has reached 2.5 s, at a pulse with no label (none is pending, or its message completed
less than 100 ms before), and at one whose label is not consecutive: it is SEARCHING, with count 0 and no last label, or count 1 and that
label; the station leaves Reference for Holdover, class DRIFTING, CLASS_CHANGE 2 is the record written, and REFERENCE and CLOCK are latched.
Line time does not move and the slew and any fast slew run on. (The latest offset stays as it was, log entry 19.) In SEARCHING a pulse with
no label sets the count to 0 and drops the labels. -/
def Obligations.TheReferenceIsLost : Prop :=
  (∀ s : State, s.port.state = .searching → unlabelledPulse s →
    ∃ t, exec .referencePulse s = .next t ∧
      t.port = { s.port with
        pending := none, count := 0, lastLabel := none, lossFrom := some (s.input.sampledAt.getD s.clock.osc)
        pulseSeen := false } ∧
      onlyChanges [.port, .alarms] s t) ∧
  ∀ (s : State) (c : Instr) (port : RefPort),
    s.port.state = .valid → s.agree.state = .reference → s.clock.cls = .ref →
    let pulsed : RefPort :=
      { s.port with
        state := .searching, pending := none, lossFrom := some (s.input.sampledAt.getD s.clock.osc), pulseSeen := false }
    (c = .referenceLossTimeout ∧ (∃ x, s.port.lossFrom = some x ∧ x + 25000000 ≤ s.clock.osc) ∧
        port = { s.port with state := .searching, count := 0, lastLabel := none, lossFrom := none }) ∨
      (c = .referencePulse ∧ unlabelledPulse s ∧ port = { pulsed with count := 0, lastLabel := none }) ∨
      (∃ sampled l, c = .referencePulse ∧ labelledPulseAt sampled l s ∧ ¬ follows s.port l ∧
        port = { pulsed with count := 1, lastLabel := some l }) →
      ∃ t r, exec c s = .next t ∧ t.port = port ∧
        justWrote r
          (((s.setPort port).setAgree
            { s.agree with state := .holdover, lockCount := 0, disputeCount := 0, emptyCount := 0 }).setClock
            { s.clock with cls := .drifting }) t ∧
        tells r .clock ⟨s.clock.lineTime, .drifting⟩ 0 2 (some 2) ∧
        t.query.latched.getLsbD 0 = true ∧ t.query.latched.getLsbD 1 = true

/-! ### The agreement unit -/

/-- The agreement unit's counts, the peer table and the reference port stay as the agreement state calls for, whatever step is taken. -/
def Obligations.AgreementStaysSound : Prop :=
  ∀ s t : State, agreementSound s → step s = .next t → agreementSound t

/-- R39. In Locked, an empty interval end adds 1 to the empty count, applies nothing and leaves the dispute count; the fourth takes the
state to Holdover, the class to DRIFTING, and writes CLASS_CHANGE 2. The interval is empty exactly when every usable beacon heard in it is
of a class worse than AGREED, as when there is none; any interval end that is not empty sets the empty count to 0. Four intervals of 8 s
are 32 s. -/
def Obligations.EmptyIntervalsInLocked : Prop :=
  (∀ s : State, s.agree.state = .locked → s.clock.cls = .agreed → intervalDue s →
      (∀ i : Station, s.agree.peers[i].heard = true →
        s.agree.peers[i].cls = some .drifting ∨ s.agree.peers[i].cls = some .unset) →
        ∃ (t : State) (x : MemberSummary), exec .intervalEnd s = .next t ∧ x.noPeer = true ∧ x.count = 0 ∧
          (s.agree.emptyCount < 3 →
            Delivered (intervalClosed ((s.setClock { s.clock with slew := 0 }).setAgree
              { s.agree with emptyCount := s.agree.emptyCount + 1, lastSet := some x })) t) ∧
          (3 ≤ s.agree.emptyCount →
            ∃ r, wroteFirst r (intervalClosed ((s.setClock { s.clock with slew := 0, cls := .drifting }).setAgree
                { s.agree with state := .holdover, lockCount := 0, disputeCount := 0, emptyCount := 0, lastSet := some x })) t ∧
              tells r .clock ⟨s.clock.lineTime, .drifting⟩ 0 2 (some 2))) ∧
    (∀ s : State, agreementSound s → s.clock.cls = .agreed →
      (members s = [] ↔ ∀ i : Station, s.agree.peers[i].heard = true → s.agree.peers[i].cls = some .drifting)) ∧
    (∀ (s t : State), s.agree.state = .locked → intervalDue s → members s ≠ [] → exec .intervalEnd s = .next t →
      t.agree.emptyCount = 0) ∧
    4 * secondPeriods 8 = secondPeriods 32

/-- In Locked a large C is applied by the third interval end in a row alone, which steps line time forward or starts a fast slew, writes STEP
or FAST_SLEW and then CLASS_CHANGE 2, and takes the station to Acquiring; the first two only count, and CLOCK is latched. (The order of the
two records, and that deadlines a step has passed expire after both, is the model's reading, log entry 13.) In Acquiring, Holdover and
Reference a large C is applied at once: line time steps, or a fast slew starts, and STEP or FAST_SLEW is the first record written, in a class
that stays; Acquiring starts its lock count anew, Holdover becomes Acquiring. -/
def Obligations.TheThirdDisputeStepsOrSlews : Prop :=
  (∀ (s : State) (c : Int) (agree : Agreement), intervalDue s → classFollowsState s → agreementSound s →
    s.settings.thresholdMs * 1000 < c.natAbs →
    (s.agree.state = .reference ∧ s.agree.refOffset = some c ∧ agree = s.agree) ∨
      ((s.agree.state = .acquiring ∨ s.agree.state = .holdover) ∧ members s ≠ [] ∧ midpoint (members s) = c ∧
        agree = { afterMidpoint s with state := .acquiring, lockCount := 0 }) →
      ∃ t r, exec .intervalEnd s = .next t ∧ t.query.latched.getLsbD 0 = true ∧
        (c < 0 →
          wroteFirst r (intervalClosed ((s.setClock
            { s.clock with slew := 0, fastSlewEnd := some (s.clock.osc + 20 * c.natAbs), lastC := some c }).setAgree agree)) t ∧
            tells r .clock ⟨s.clock.lineTime, s.clock.cls⟩ 0 1 (some (clockValue c))) ∧
        (0 < c →
          t.clock = { s.clock with
              slew := 0, lastC := some c, lineTime := min 72057594037927935 (s.clock.lineTime + c.toNat) } ∧
            t.agree = (intervalClosed (s.setAgree { agree with phase := t.agree.phase })).agree ∧
            tookFirst r s t ∧ tells r .clock ⟨t.clock.lineTime, s.clock.cls⟩ 0 0 (some (clockValue c)) ∧
            onlyChanges [.clock, .agree, .line, .journal, .reader, .news, .watch, .points, .checks, .marks, .dials,
              .choices, .alarms] s t)) ∧
  ∀ s : State, s.agree.state = .locked → s.clock.cls = .agreed → intervalDue s → members s ≠ [] →
    s.settings.thresholdMs * 1000 < (midpoint (members s)).natAbs →
      let c := midpoint (members s)
      ∃ t, exec .intervalEnd s = .next t ∧ t.query.latched.getLsbD 0 = true ∧
        (s.agree.disputeCount < 2 →
          Delivered (intervalClosed ((s.setClock { s.clock with slew := 0 }).setAgree
            { afterMidpoint s with disputeCount := s.agree.disputeCount + 1, emptyCount := 0 })) t) ∧
        (2 ≤ s.agree.disputeCount → c < 0 →
          ∃ r q, Delivered (intervalClosed ((s.setClock
                { s.clock with
                  slew := 0, cls := .drifting, fastSlewEnd := some (s.clock.osc + 20 * c.natAbs), lastC := some c }).setAgree
                { afterMidpoint s with state := .acquiring, lockCount := 0, disputeCount := 0, emptyCount := 0 })) t ∧
            tookInTurn r q s t ∧ tells r .clock ⟨s.clock.lineTime, .agreed⟩ 0 1 (some (clockValue c)) ∧
            tells q .clock ⟨s.clock.lineTime, .drifting⟩ 0 2 (some 2)) ∧
        (2 ≤ s.agree.disputeCount → 0 < c →
          t.clock = { s.clock with
              slew := 0, cls := .drifting, lastC := some c
              lineTime := min 72057594037927935 (s.clock.lineTime + c.toNat) } ∧
            t.agree.state = .acquiring ∧ t.agree.lockCount = 0 ∧ t.agree.disputeCount = 0 ∧ t.agree.emptyCount = 0 ∧
            (∃ r q, tookInTurn r q s t ∧ tells r .clock ⟨t.clock.lineTime, .agreed⟩ 0 0 (some (clockValue c)) ∧
              tells q .clock ⟨t.clock.lineTime, .drifting⟩ 0 2 (some 2)) ∧
            onlyChanges [.clock, .agree, .line, .journal, .reader, .news, .watch, .points, .checks, .marks, .dials,
              .choices, .alarms] s t)

/-- A small C at an interval end slews line time by C/T and moves the trim by C/(4T), in 0.01 ppm, each rounded to nearest with halves
away from zero and kept in its range, and line time does not jump. Locked clears its dispute and empty counts; Acquiring counts it where
it is within 250 µs, and the fourth in a row makes the station Locked; Holdover becomes Locked at once; in Reference the held reference
offset is C. -/
def Obligations.SmallCorrections : Prop :=
  (∀ (n : Int) (d : Nat), 0 < d → roundsTo n d (roundHalfAway n d)) ∧
    (∀ (s : State) (c : Int), intervalDue s → classFollowsState s → c.natAbs ≤ s.settings.thresholdMs * 1000 →
      (s.agree.state = .reference ∧ s.agree.refOffset = some c) ∨
        ((s.agree.state = .acquiring ∨ s.agree.state = .locked ∨ s.agree.state = .holdover) ∧ members s ≠ [] ∧
          midpoint (members s) = c) →
        let clock : Clock :=
          { s.clock with
            slew := max (-50000) (min 50000 (roundHalfAway (c * 100) s.settings.interval))
            trim := max (-20000) (min 20000 (s.clock.trim + roundHalfAway (c * 100) (4 * s.settings.interval)))
            lastC := some c }
        let locks := s.agree.state = .holdover ∨ (s.agree.state = .acquiring ∧ c.natAbs ≤ 250 ∧ 3 ≤ s.agree.lockCount)
        ∃ t, exec .intervalEnd s = .next t ∧
          (s.agree.state = .reference → Delivered (intervalClosed (s.setClock clock)) t) ∧
          (s.agree.state = .locked →
            Delivered (intervalClosed ((s.setClock clock).setAgree
              { afterMidpoint s with disputeCount := 0, emptyCount := 0 })) t) ∧
          (s.agree.state = .acquiring → ¬ locks →
            Delivered (intervalClosed ((s.setClock clock).setAgree
              { afterMidpoint s with lockCount := if c.natAbs ≤ 250 then s.agree.lockCount + 1 else 0 })) t) ∧
          (locks →
            ∃ r, wroteFirst r (intervalClosed ((s.setClock { clock with cls := .agreed }).setAgree
                { afterMidpoint s with state := .locked, lockCount := 0, disputeCount := 0, emptyCount := 0 })) t ∧
              tells r .clock ⟨s.clock.lineTime, .agreed⟩ 0 2 (some 1)))

/-- During a fast slew an interval end closes the interval and applies nothing. An Unset station's first interval end with members sets line
time by C, becomes Acquiring, and writes CLASS_CHANGE 2 dated after the move; the trim and the fraction stay. (That CLASS_CHANGE is the first
record is log entry 13; line time at 0 for a setting below 0 is log entry 24.) -/
def Obligations.FastSlewsAndTheFirstSetting : Prop :=
  (∀ (s : State) (x : OscTime), s.clock.fastSlewEnd.isSome = true → s.agree.timerFrom = some x →
      x + secondPeriods s.settings.interval ≤ s.clock.osc →
      ∃ t, exec .intervalEnd s = .next t ∧ Delivered (intervalClosed (s.setClock { s.clock with slew := 0 })) t) ∧
    (∀ s : State, s.agree.state = .unset → s.clock.cls = .unset → intervalDue s → members s ≠ [] →
      let c := midpoint (members s)
      ∃ t r, exec .intervalEnd s = .next t ∧
        t.clock = { s.clock with
          slew := 0, cls := .drifting, lastC := some c
          lineTime := min 72057594037927935 ((s.clock.lineTime : Int) + c).toNat } ∧
        t.agree = (intervalClosed (s.setAgree
          { afterMidpoint s with
            state := .acquiring, lockCount := 0, disputeCount := 0, emptyCount := 0, phase := t.agree.phase })).agree ∧
        tookFirst r s t ∧ tells r .clock ⟨t.clock.lineTime, .drifting⟩ 0 2 (some 2) ∧
        (∀ (i : DialNo) (x : Nat), s.dials[i].position = some x → t.dials[i].position = some x ∧
          t.dials[i].target = some (targetAt s.dials[i].defn t.clock.lineTime)) ∧
        onlyChanges [.clock, .agree, .line, .journal, .reader, .news, .watch, .points, .checks, .marks, .dials,
          .choices, .alarms] s t)

/-- The members are the peers heard in the interval whose class is the best one heard, with their last offsets, and the station itself with
offset 0 where that class is its own and not UNSET; there are none where that class is worse than the station's own, or no peer is one. Of
the members sorted by offset, then station, none is set aside at each end for up to 2 members, one for 3 to 6 and two for more, and C is half
the sum of the least and the greatest offset kept, rounded toward zero. So C lies in every range from `a` to `b` that all members but at
most so many lie in. A peer set aside adds 1 to its streak, up to 8, where its outlier flag is set; a peer kept clears both; a station that
is no member, and the station itself, keeps its entry. -/
def Obligations.TheMidpointOutvotesOutliers : Prop :=
  (∀ n, setAside n = if n ≤ 2 then 0 else if n ≤ 6 then 1 else 2) ∧
    (∀ (peers : Vector Peer 32) (me : Station) (cls : ClockClass) (m : Member), peers[me].heard = false →
      (m ∈ memberSet peers me cls ↔ ∃ best, bestClassIs peers best ∧ best.number ≤ cls.number ∧
        (∃ p, peerMember peers best p) ∧ (peerMember peers best m ∨ (m = (0, me) ∧ cls = best ∧ cls ≠ .unset))) ∧
      ((memberSet peers me cls).map Prod.snd).Nodup) ∧
    (∀ ms : List Member, ms ≠ [] →
      ∃ low high sorted least greatest,
        sorted.Perm ms ∧ sorted = low ++ keptMembers ms ++ high ∧ low.length = setAside ms.length ∧
          high.length = setAside ms.length ∧
          sorted.Pairwise (fun x y => x.1 < y.1 ∨ (x.1 = y.1 ∧ x.2 ≤ y.2)) ∧
          least ∈ keptMembers ms ∧ greatest ∈ keptMembers ms ∧
          (∀ m ∈ keptMembers ms, least.1 ≤ m.1 ∧ m.1 ≤ greatest.1) ∧
          midpoint ms = (least.1 + greatest.1).sign * ((least.1 + greatest.1).natAbs / 2 : Nat)) ∧
    (∀ (ms : List Member) (a b : Int), ms ≠ [] →
      (ms.filter fun m => decide (m.1 < a) || decide (b < m.1)).length ≤ setAside ms.length →
        a ≤ midpoint ms ∧ midpoint ms ≤ b) ∧
    ∀ (me i : Station) (ms : List Member) (peers : Vector Peer 32),
      ((i = me ∨ ∀ m ∈ ms, m.2 ≠ i) → (updateStreaks me ms peers)[i] = peers[i]) ∧
        (i ≠ me → (∃ m ∈ keptMembers ms, m.2 = i) →
          (updateStreaks me ms peers)[i] = { peers[i] with streak := 0, outlier := false }) ∧
        (i ≠ me → (∃ m ∈ ms, m.2 = i) → (∀ m ∈ keptMembers ms, m.2 ≠ i) →
          (updateStreaks me ms peers)[i] =
            { peers[i] with
              streak := min 8 (peers[i].streak + 1)
              outlier := peers[i].outlier || decide (7 ≤ peers[i].streak) })

/-- A beacon's offset is its transmit time plus D less the date of its start sequence. A beacon of class UNSET, or more than one day off for a
station that is set, is discarded and counted; any other is recorded for its station while the interval timer runs. -/
def Obligations.BeaconsAreRecordedOrDiscarded : Prop :=
  ∀ (s : State) (source : Station) (cls : ClockClass) (code : BitVec 3) (alarm : Bool) (transmit : BitVec 56) (d : Date),
    s.line.activity = .hearing d → source ≠ own s →
      let offset : Int := (transmit.toNat : Int) + s.settings.delay - d.time
      let discards := cls = .unset ∨ (s.clock.cls ≠ .unset ∧ 86400000000 < offset.natAbs)
      ∃ t, exec (.beacon source cls code alarm transmit) s = .next t ∧
        onlyChanges [.line, .news, .agree, .alarms] s t ∧ t.news = (heardFrom source (beaconTelegram source cls code alarm transmit) s).news ∧
        t.line = { s.line with
          activity := .busy
          quietFrom := some (lastDrivenOf (beaconTelegram source cls code alarm transmit) s)
          counters := { s.line.counters with
            discards := if discards then min 65535 (s.line.counters.discards + 1) else s.line.counters.discards } } ∧
        t.agree = (if discards ∨ s.agree.timerFrom = none then s.agree
          else { s.agree with
            peers := setAt s.agree.peers source
              { s.agree.peers[source] with offset := some offset, cls := some cls, heard := true } })

/-- After a jump of line time no deadline is left that line time has reached: no start or stroke deadline of a point, no deadline of a check entry,
no close deadline of a hold that is not close due, no target change of an impulse line, and no beacon phase. (That a phase which the old line time had reached already, its BEACON_PHASE not yet taken, is passed as well is the model's
reading, log entry 35.) -/
def Obligations.AfterAJumpNoDeadlineIsLeftBehind : Prop :=
  ∀ (s t : State) (c : Instr), c = .intervalEnd ∨ c = .referencePulse → entriesSound s → dialsSound s → holdsFit s →
    exec c s = .next t → t.clock.lineTime ≠ s.clock.lineTime →
      let ahead := fun d : LineTime => t.clock.lineTime < d
      (∀ (p : PointNo) (toward : Side) (call : Date) (d : LineTime), t.points[p].state = .called toward call d → ahead d) ∧
        (∀ (p : PointNo) (toward : Side) (call loss : Date) (d : LineTime),
          t.points[p].state = .moving toward call loss d → ahead d) ∧
        (∀ (e : EntryNo) (c : CheckEntry) (d : LineTime), t.checks[e] = some c → c.deadline = some d → ahead d) ∧
        (∀ h ∈ t.marks.holds, ∀ d, h.deadline = some d → h.closeDue = false → ahead d) ∧
        (∀ (l : DialNo) (d : LineTime), t.dials[l].deadline = some d → ahead d) ∧
        ∀ d, t.agree.phase = some d → ahead d

/-! ### The timing line -/

/-- Every telegram with up to 160 payload bytes, put on the line bit by bit behind its start sequence with its length and its check, is framed by a
receiver as exactly that telegram, whatever is seen after the quiet bit-time that follows it; and a telegram that is framed has up to 160 payload
bytes, and what was seen begins with it and its quiet bit-time, bit by bit. -/
def Obligations.FramesRoundTrip : Prop :=
  (∀ (t : Telegram) (after : List BitTime), t.payload.length ≤ 160 → frame (telegramOnLine t ++ after) = some t) ∧
    ∀ (t : Telegram) (seen : List BitTime), frame seen = some t →
      t.payload.length ≤ 160 ∧ ∃ after, seen = telegramOnLine t ++ after

/-- What another station hears of a BEACON, a MARK or a NEWS telegram of this station is the command with the very items that were sent, records
whole; an ANSWER and a HISTORY telegram are not for stations of this kind and are ignored, and a station of the same number hears a
duplicate. -/
def Obligations.TelegramsAreHeardAsSent : Prop :=
  (∀ r : Record, r.date.time < 2 ^ 56 → parseRecord (recordBytes r) = r ∧ (recordBytes r).length = 18) ∧
    ∀ (me other : Station) (after : List BitTime), other ≠ me →
      let heard := fun x : OutTelegram => receptionOf other (telegramOnLine (onTheLine me x) ++ after)
      (∀ i : BeaconItems, i.transmit < 2 ^ 56 →
        heard ⟨63, .beacon (some i)⟩ =
          .taken (.beacon me i.cls (BitVec.ofNat 3 (agreementCode i.state)) i.alarm (BitVec.ofNat 56 i.transmit))) ∧
      (∀ m : MarkInfo, m.originator = me → m.time < 2 ^ 56 → m.pre < 65536 → m.post < 65536 →
        heard ⟨63, .mark m⟩ =
          .taken (.mark me m.number m.reason m.subject (BitVec.ofNat 56 m.time) (BitVec.ofNat 16 m.pre)
            (BitVec.ofNat 16 m.post))) ∧
      (∀ n : NewsTelegram, 1 ≤ n.records.length → n.records.length ≤ 8 → n.gap < 256 →
        (∀ r ∈ n.records, r.date.time < 2 ^ 56) →
          heard ⟨63, .news n⟩ = .taken (.news me n.sequence (BitVec.ofNat 8 n.gap) n.records)) ∧
      (∀ (dest : BitVec 6) (tag kind : Byte) (result : Result) (data : List Byte), data.length ≤ 157 →
        heard ⟨dest, .answer tag kind result data⟩ = .ignored ∧
          receptionOf me (telegramOnLine (onTheLine me ⟨dest, .answer tag kind result data⟩)) = .duplicate) ∧
      (∀ (dest : BitVec 6) (tag : Byte) (ends overrun : Bool) (skipped : Nat) (records : List Record), records.length ≤ 8 →
        heard ⟨dest, .history tag ends overrun skipped records⟩ = .ignored ∧
          receptionOf me (telegramOnLine (onTheLine me ⟨dest, .history tag ends overrun skipped records⟩)) = .duplicate)

/-- LINE_FREE frees a busy line that has been quiet for 16 bit-times from the end of its last driven half-bit, and keeps the moment at which it
became free; before that it changes nothing. LINE_BUSY ends the quiet of a free line, and on a busy one sets its measuring anew (log
entry 28). START_SEQUENCE_HEARD, while the first bits are being framed or from a free line, dates the telegram and clears the fairness hold; FAIRNESS_ROUND_END clears it after one quiet round of
1,024 bit-times. What is seen and fails its framing, its length, its check or the layout of its kind is dropped and counted, quiet being
measured from its last driven half-bit; a telegram of the own station number is counted as a duplicate and is an event of LINE; one for other
stations, or of a kind or destination not used, only tells that its source is heard. Nothing is handed on. A telegram whose last bit is 1
ends with a driven half-bit, one whose last bit is 0 with a released one. -/
def Obligations.TheLineIsFollowedAndWasteDropped : Prop :=
  (∀ (s : State) (x : OscTime), s.line.running = true → s.line.activity = .busy → s.line.quietFrom = some x →
      (x + 16 * bitPeriods s ≤ s.clock.osc →
        ∃ t, exec .lineFree s = .next t ∧
          t.line = { s.line with activity := .free, freeAt := some (x + 16 * bitPeriods s) } ∧
          onlyChanges [.line, .alarms] s t) ∧
      (s.clock.osc < x + 16 * bitPeriods s → exec .lineFree s = .next s)) ∧
    (∀ s : State, s.line.running = true → s.line.activity = .busy →
      ∃ t, exec .lineBusy s = .next t ∧ t.line = { s.line with quietFrom := some (s.clock.osc + bitPeriods s / 2) } ∧
        onlyChanges [.line, .alarms] s t) ∧
    (∀ (t : Telegram), ∃ before, telegramBitList t = before ++ [lastBit t]) ∧
    (∀ seen : List BitTime, releasedHalves (seen ++ [.quiet]) = releasedHalves seen + 2 ∧
      releasedHalves (seen ++ [.zero]) = 1 ∧ releasedHalves (seen ++ [.one]) = 0 ∧ releasedHalves (seen ++ [.both]) = 0) ∧
    (∀ s : State, s.line.activity = .free →
      ∃ t, exec .lineBusy s = .next t ∧ t.line = { s.line with activity := .framing } ∧ onlyChanges [.line, .alarms] s t) ∧
    (∀ s : State, s.line.activity = .framing ∨ s.line.activity = .free →
      ∃ t, exec .startSequenceHeard s = .next t ∧
        t.line = { s.line with activity := .hearing ⟨s.clock.lineTime, s.clock.cls⟩, fairness := false } ∧
        onlyChanges [.line, .alarms] s t) ∧
    (∀ (s : State) (x : OscTime), s.line.activity = .free → s.line.freeAt = some x → s.line.fairness = true →
      x + 1024 * bitPeriods s ≤ s.clock.osc →
      ∃ t, exec .fairnessRoundEnd s = .next t ∧ t.line = { s.line with fairness := false } ∧
        onlyChanges [.line, .alarms] s t) ∧
    (∀ (me : Station) (seen : List BitTime), frame seen = none → receptionOf me seen = .dropped) ∧
      (∀ (s : State) (seen : List BitTime), s.line.activity = .framing ∨ (∃ d, s.line.activity = .hearing d) →
        receptionOf (own s) seen = .dropped →
        ∃ t, exec (.telegramDropped seen) s = .next t ∧
          t.line = { s.line with
            activity := .busy
            quietFrom := some (s.clock.osc - releasedHalves seen * (bitPeriods s / 2))
            counters := { s.line.counters with checkFailures := min 65535 (s.line.counters.checkFailures + 1) } } ∧
          onlyChanges [.line, .alarms] s t) ∧
      (∀ (s : State) (x : Telegram) (d : Date), s.line.activity = .hearing d → consistent x = true → sourceOf x = own s →
        ∃ t, exec (.duplicateStationTelegram x) s = .next t ∧
          t.line = { s.line with
            activity := .busy, quietFrom := some (lastDrivenOf x s), trouble := true
            counters := { s.line.counters with duplicates := min 65535 (s.line.counters.duplicates + 1) } } ∧
          t.query.latched.getLsbD 3 = true ∧ onlyChanges [.line, .alarms] s t) ∧
      (∀ (s : State) (x : Telegram) (d : Date), s.line.activity = .hearing d → consistent x = true → sourceOf x ≠ own s →
        (x.kind.toNat = 3 ∨ 5 ≤ x.kind.toNat ∨ (x.kind.toNat = 4 ∧ x.dest.toNat ≠ (own s).val) ∨
          (x.kind.toNat < 3 ∧ x.dest.toNat ≠ 63)) →
        ∃ t, exec (.telegramIgnored x) s = .next t ∧ t.line = (heardFrom (sourceOf x) x s).line ∧
          t.news = (heardFrom (sourceOf x) x s).news ∧ onlyChanges [.line, .news, .alarms] s t)

/-- At the station's own slot of class p, whose beginning comes (32 p + station) × 8 bit-times after free and again every 1,024, the
waiting telegram of the lowest class up to p is sent, only a beacon while the fairness hold stands; a telegram of class 1 to 3 does not
start while it stands, and nothing starts where no telegram waits that is of class p or lower; no two stations, and no two classes of one,
share any part of a slot; and a bit-time is 4, 2 or 1 µs, that is 40, 20 or 10 oscillator periods. -/
def Obligations.AContentionSlotStartsTheLowestClass : Prop :=
  (∀ (s : State) (p k : TelegramClass) (x : OutTelegram) (n rounds : Nat) (f : OscTime),
      s.line.activity = .free → s.line.freeAt = some f →
      s.clock.osc = f + rounds * (1024 * bitPeriods s) + (32 * p.val + (own s).val) * 8 * bitPeriods s →
      s.line.slots[k] = .waiting x n → k ≤ p → (s.line.fairness = true → k = 0) →
      (∀ j : TelegramClass, j < k → ∀ y m, s.line.slots[j] ≠ .waiting y m) →
      ∃ t, exec (.contentionSlot p) s = .next t ∧
        t.line = { s.line with
          activity := .sending, slots := setAt s.line.slots k (.sending x (n + 1) s.clock.osc) } ∧
        onlyChanges [.line, .alarms] s t) ∧
    (∀ (s : State) (p : TelegramClass),
      (∀ (k : TelegramClass) (x : OutTelegram) (n : Nat), s.line.slots[k] = .waiting x n →
        p < k ∨ (k ≠ 0 ∧ s.line.fairness = true)) →
      exec (.contentionSlot p) s = .next s) ∧
    (∀ (a b : Station) (p q : TelegramClass), (a, p) ≠ (b, q) →
      slotOffset a p + 8 ≤ slotOffset b q ∨ slotOffset b q + 8 ≤ slotOffset a p) ∧
    (∀ (a : Station) (p : TelegramClass), slotOffset a p + 8 ≤ 1024) ∧
    (∀ s : State, (s.settings.bitRate = 250 → bitPeriods s = 40) ∧ (s.settings.bitRate = 500 → bitPeriods s = 20) ∧
      (s.settings.bitRate = 1000 → bitPeriods s = 10))

/-- A telegram that has been on the line for its whole length counts as sent, its slot is EMPTY, a fairness hold stands unless it was a
beacon, and quiet is measured from its last driven half-bit. Then the block that filled the slot goes on, and nothing else changes: a MARK leaves
the list and the next takes the slot; a NEWS is counted, its sender looks again, and a read that waited for the flush target it carried may leave
NEWS_WAIT; an answer offers its next part or leaves the queue, and its read may leave NEWS_WAIT where it was ACCEPTED; of these two the class 2 slot goes
to the arbiter; a HISTORY ends its read, or lets it collect on. The answer of a RESTART takes the restart into effect (with it every impulse line's target goes, log entry 23; that END is fixed as a HISTORY telegram is assembled is log entry
17). -/
def Obligations.ATelegramSentFreesItsSlot : Prop :=
  ∀ (s : State) (k : TelegramClass) (x : OutTelegram) (n : Nat) (since : OscTime),
    lineSound s → s.line.slots[k] = .sending x n since → since + telegramBits x * bitPeriods s ≤ s.clock.osc →
      let base := s.setLine
        { s.line with
          activity := .busy
          quietFrom := some (since + telegramBits x * bitPeriods s -
            (if lastBit (onTheLine (own s) x) then 0 else bitPeriods s / 2))
          slots := setAt s.line.slots k .vacant
          fairness := s.line.fairness || decide (k ≠ 0)
          counters := { s.line.counters with sent := min 65535 (s.line.counters.sent + 1) } }
      let restarts := ∃ a rest, s.query.answers = a :: rest ∧ a.forRestart = true ∧ a.parts.length < 2 ∧
        payloadKind x.payload = 3
      ∃ t, exec .telegramSent s = .next t ∧ (¬ restarts → ∃ u, blockFinishes x true base u ∧ t = relatch u) ∧
        (restarts → holdsFit s → warmRestarted .query s t)

/-- A mismatch comes in a half-bit that the station releases, the first of a 1 or the second of a 0 of its telegram; in one that it drives, and
once the telegram has ended, MISMATCH does nothing. It stops the attempt at once and is counted, the line trouble flag is set and LINE latched;
quiet is measured from the end of that half-bit, which ends as the next one begins (log entry 28). The telegram waits again, its attempts
counted, until 8 have been made; then, and a beacon at once, it is discarded and counted, its slot is EMPTY, and the block that filled the slot
goes on as after a telegram sent, a NEWS counted as discarded and a MARK as not sent, and nothing else changes; the answer of a RESTART takes the restart into effect (with it every impulse line's target goes, log entry 23). -/
def Obligations.AMismatchRetriesOrDiscards : Prop :=
  ∀ (s : State) (k : TelegramClass) (x : OutTelegram) (n : Nat) (since : OscTime),
    lineSound s → s.line.slots[k] = .sending x n since →
    (since + telegramBits x * bitPeriods s ≤ s.clock.osc → exec .mismatch s = .next s) ∧
    ∀ (i : Nat) (bit : Bool), (telegramBitList (onTheLine (own s) x))[i]? = some bit →
      let half := bitPeriods s / 2
      let first := since + i * bitPeriods s
      let releases := if bit then s.clock.osc < first + half else first + half ≤ s.clock.osc
      let line : LineControl :=
        { s.line with
          activity := .busy, trouble := true
          quietFrom := some (first + (if bit then half else bitPeriods s))
          counters := { s.line.counters with mismatches := min 65535 (s.line.counters.mismatches + 1) } }
      let base := (s.setLine
        { line with
          slots := setAt s.line.slots k .vacant
          counters := { line.counters with discards := min 65535 (s.line.counters.discards + 1) } }).setQuery
        { s.query with latched := s.query.latched ||| 8 }
      let restarts := ∃ a rest, s.query.answers = a :: rest ∧ a.forRestart = true ∧ a.parts.length < 2 ∧
        payloadKind x.payload = 3
      first ≤ s.clock.osc → s.clock.osc < first + bitPeriods s →
      (¬ releases → exec .mismatch s = .next s) ∧
      (releases → ∃ t, exec .mismatch s = .next t ∧
        (k ≠ 0 → n < 8 →
          t.line = { line with slots := setAt s.line.slots k (.waiting x n) } ∧ t.query.latched.getLsbD 3 = true ∧
            onlyChanges [.line, .alarms] s t) ∧
        (k = 0 ∨ 8 ≤ n → ¬ restarts →
          (∃ u, blockFinishes x false base u ∧ t = relatch u) ∧ t.query.latched.getLsbD 3 = true) ∧
        (k = 0 ∨ 8 ≤ n → restarts → holdsFit s → warmRestarted .query s t))

/-- The line controller, its slots and the news unit's sender agree with each other, whatever step is taken. -/
def Obligations.LineStaysSound : Prop :=
  ∀ s t : State, lineSound s → step s = .next t → lineSound t

/-! ### The field inputs -/

/-- A sample reads every field input under one date, RPPS for a pulse, RSTN for a restart edge and the sense inputs of the lines that
pulse, and the next one comes 100 µs later. (That the first sample shows no edge is log entry 6, that the moment of the next is 100 µs on
from power-on log entry 5, that an awaited chatter second begins at this sample log entry 8, that a run which has lasted the filter time
is kept whatever is read log entry 9, and that the level of RPPS is kept, and counts as the one before a pulse, when the port was NOT_FITTED
log entry 36.) -/
def Obligations.ASampleReadsEveryPin : Prop :=
  ∀ (s : State) (contacts : BitVec 64) (reference restart : Bool) (sense : BitVec 4),
    s.input.nextSample ≤ s.clock.osc →
      ∃ t, exec (.sample contacts reference restart sense) s = .next t ∧
        (∀ i : InputNo, sampled s.input.channels[i]
          (if contacts.getLsbD i.val = s.input.channels[i].defn.inverted then .inactive else .active)
          ⟨s.clock.lineTime, s.clock.cls⟩ t.input.channels[i]) ∧
        t.input.nextSample = s.input.nextSample + 1000 ∧ t.input.sampledAt = some s.clock.osc ∧
        t.input.sampleDate = ⟨s.clock.lineTime, s.clock.cls⟩ ∧
        (s.input.secondAwaited = true → t.input.secondFrom = some s.clock.osc) ∧
        (s.input.secondAwaited = false → t.input.secondFrom = s.input.secondFrom) ∧
        t.pins = { s.pins with
          contacts := contacts, reference := reference, restart := restart, sense := sense, sampled := true
          restartEdge := s.pins.restartEdge || (s.pins.sampled && !s.pins.restart && restart) } ∧
        t.port = { s.port with
          pulseSeen := s.port.pulseSeen ||
            (decide (s.port.state ≠ .notFitted) && s.pins.sampled && !s.pins.reference && reference) } ∧
        (∀ l : DialNo, t.dials[l] = if s.dials[l].state = .pulsing
          then { s.dials[l] with sensed := s.dials[l].sensed || sense.getLsbD l.val } else s.dials[l]) ∧
        onlyChanges [.input, .pins, .port, .dials, .alarms] s t

/-- R71. A sample that reads the accepted level again, before a run is accepted, drops the run: accepted level, chatter count and quiet
count stay, no record is written and nothing reaches the news, a point or a check. A later sample that reads the run's level begins a new
run, dated then and counted from 0. -/
def Obligations.ARevertedRunLeavesNoTrace : Prop :=
  ∀ (s : State) (i : InputNo) (r : Run) (accepted : Level) (contacts : BitVec 64) (reference restart : Bool) (sense : BitVec 4),
    s.input.nextSample ≤ s.clock.osc →
    (s.input.channels[i].mode = .normal ∨ s.input.channels[i].mode = .chattering) →
    s.input.channels[i].accepted = some accepted → levelOf s.input.channels[i].defn (contacts.getLsbD i.val) = accepted →
    s.input.channels[i].run = some r → r.level ≠ accepted → r.age < 10 * s.input.channels[i].defn.filterMs →
      ∃ t, exec (.sample contacts reference restart sense) s = .next t ∧
        t.input.channels[i] = { s.input.channels[i] with reading := some accepted, run := none } ∧
        t.journal = s.journal ∧ t.news = s.news ∧ t.points = s.points ∧ t.checks = s.checks ∧ t.reader = s.reader ∧
        t.marks = s.marks ∧
        ∀ (u : State) (again : BitVec 64), u.input.channels[i] = t.input.channels[i] → u.input.nextSample ≤ u.clock.osc →
          levelOf u.input.channels[i].defn (again.getLsbD i.val) = r.level →
            ∃ v, exec (.sample again reference restart sense) u = .next v ∧
              v.input.channels[i].run = some ⟨r.level, ⟨u.clock.lineTime, u.clock.cls⟩, 0⟩

/-- ACCEPTANCE of a channel whose run has lasted the filter time, and START_RUN_ACCEPTANCE of one whose start run has. A run accepted in NORMAL
counts toward chatter and, unless it ends a pulse input's pulse, writes INPUT dated at its first sample; one that comes with the chatter count
at its limit makes the channel CHATTERING, latches INPUT and writes CHATTER with the level as value; one in CHATTERING returns the quiet count
to 0 and writes nothing. A start run makes the channel NORMAL at its level and writes an initial INPUT record, code 2 or 3. Each record is
delivered, once written, to every point and active check entry that names the input, and to no other. Where a channel of a lower number has its
record of this sample still to write, neither does anything (log entry 9). -/
def Obligations.AcceptancesAreRecorded : Prop :=
  (∀ (s : State) (i : InputNo) (r : Run), accepts i r s →
    (s.input.channels[i].mode = .normal ∨ s.input.channels[i].mode = .chattering →
      ∃ t, exec (.acceptance i) s = .next (relatch t) ∧ channelAccepts i r s t) ∧
    (s.input.channels[i].mode = .starting →
      ∃ t, exec (.startRunAcceptance i) s = .next (relatch t) ∧ channelAccepts i r s t)) ∧
    ∀ (s : State) (i j : InputNo), j < i →
      s.input.channels[j].awaits = true ∨ (secondOverdue s ∧ settling s.input.channels[j]) →
        exec (.acceptance i) s = .next s ∧ exec (.startRunAcceptance i) s = .next s

/-- At the end of a chatter second a NORMAL channel's chatter count returns to 0 and a CHATTERING one counts on toward its tenth quiet second, the
next second begins where this one ended, and each channel that settles writes SETTLED with its level, dated at the latest sample, and delivers
it; where none settles nothing else changes. The channels take their turns in rising order, each whole with its deliveries. Where one settles, each channel that waits for its acceptance takes it in its turn, in either order with its own
end of the second (log entry 9), and the records of the channels go in rising order of input number. -/
def Obligations.AChatterSecondEnds : Prop :=
  ∀ (s : State) (x y : OscTime), s.input.secondFrom = some x → s.input.sampledAt = some y → x + 10000000 ≤ y →
    let accepting := fun i : InputNo =>
      s.input.channels[i].awaits = true ∧ ∃ j : InputNo, settling s.input.channels[j]
    ∃ t rs, exec .chatterSecondEnd s = .next t ∧ t.input.secondFrom = some (x + 10000000) ∧
      (∀ i : InputNo, ∃ b, (b = true ↔ accepting i) ∧
        secondTaken s.settings.chatterLimit b s.input.channels[i] t.input.channels[i] s.input.sampleDate) ∧
      Delivered (s.setInput t.input) t ∧ t.journal = s.journal.writeAll rs ∧
      (∀ (i : InputNo) (l : Level), settling s.input.channels[i] → s.input.channels[i].accepted = some l → ¬ accepting i →
        ∃ q ∈ rs, tells q .settled s.input.sampleDate i.val (levelNumber l) none ∧ q.uncertain = false) ∧
      (ofChannels rs).Pairwise (fun a b => a.subject.toNat ≤ b.subject.toNat) ∧
      (∃ f : Nat → State, f 0 = s.setInput { s.input with secondFrom := some (x + 10000000) } ∧ t = relatch (f 64) ∧
        ∀ i : InputNo, channelTurn (accepting i) i (f i.val) (f (i.val + 1))) ∧
      ((∀ i : InputNo, ¬ settling s.input.channels[i]) → onlyChanges [.input, .alarms] s t)

/-! ### The journal, the history reader and the news -/

/-- Whatever step is taken, every table and every queue stays within its size, and the holds stay sound; every record in a hold stays dated within
the hold's window; and the watch table keeps one entry, of a count above 0, for each remote pair that a point definition or an active check entry
names, its count the number of those that name it, and is empty until a configuration read has ended. -/
def Obligations.TablesStayWithinTheirSizes : Prop :=
  (∀ s t : State, tablesFit s → step s = .next t → tablesFit t) ∧
    (∀ s t : State, holdsDated s → step s = .next t → holdsDated t) ∧
    ∀ s t : State, watchAgrees s → quietWhileReading s → step s = .next t → watchAgrees t

/-- The journal holds consecutive numbers that end just before the next one, whatever step is taken, and a record is found under its own number. -/
def Obligations.JournalNumbersStayConsecutive : Prop :=
  (∀ s t : State, journalOrdered s → step s = .next t → journalOrdered t) ∧
    ∀ (s : State) (i : Nat) (r : Record), journalFits s → journalOrdered s → s.journal.records[i]? = some r →
      recordAt s.journal r.number = some r ∧ newestNumber s.journal + 1 = s.journal.next

/-- A record handed to the journal takes the next number and is placed as the newest; it joins the announcement queue, or a full queue
refuses it, which is counted, adds to the gap and latches NEWS_GAP; MARK HEARD is not announced. As a record joins, a sender in NONE looks at its
conditions: at the watermark, at the batch wait or for a flush target it forms a telegram and offers it to the arbiter, and else it stays NONE. A hold in FILLING takes it where its
window has its date. In a full ring it replaces the oldest record. A read of the journal that was to visit that one next skips it, which is
counted, and a telegram made then carries OVERRUN and the count (that a skip which leaves nothing to visit makes the telegram at once, with
END, is log entry 17). A hold whose walk was to visit it next goes on to the following one, and where its window has the date lost it becomes
PARTIAL, with HOLD PARTIAL written, once. Nothing else changes but what follows from these. -/
def Obligations.AWriteIsNumberedAndAnnounced : Prop :=
  ∀ (s : State) (r : Record),
    let placed := { r with number := s.journal.next }
    let t := writeRecord r s
    justWrote r s t ∧
      (s.marks.holds = [] →
        t.journal = s.journal.write r ∧ t.marks = s.marks ∧
          (r.kind = .mark ∧ r.code = 1 → t.news = s.news) ∧
          (¬ (r.kind = .mark ∧ r.code = 1) → s.news.queue.length < 64 → s.news.sender ≠ .idle →
            t.news = { s.news with queue := s.news.queue ++ [(placed, s.clock.osc)] }) ∧
          (¬ (r.kind = .mark ∧ r.code = 1) → 64 ≤ s.news.queue.length →
            t.query.latched.getLsbD 9 = true ∧
              t.news = { s.news with
                gap := min 255 (s.news.gap + 1)
                counters := { s.news.counters with refused := min 65535 (s.news.counters.refused + 1) } }) ∧
          (¬ (r.kind = .mark ∧ r.code = 1) → s.news.queue.length < 64 →
            senderLooked
              ((((s.setJournal (s.journal.write r)).setReader t.reader).setLine
                { s.line with
                  slots := setAt s.line.slots 3 t.line.slots[(3 : TelegramClass)] }).setNews
                { s.news with queue := s.news.queue ++ [(placed, s.clock.osc)] }) t) ∧
          (s.reader = none → t.reader = none ∧
            t.line.slots[(3 : TelegramClass)] = s.line.slots[(3 : TelegramClass)])) ∧
      (∀ h, s.marks.holds = [h] → h.state = .filling → storeCount s.marks.holds < 1024 →
        t.marks.holds = [if h.start ≤ r.date.time ∧ r.date.time ≤ h.stop then { h with records := h.records ++ [placed] }
          else h]) ∧
      (∀ rd, s.marks.holds = [] → s.reader = some rd →
        let skips := rd.source = .journal ∧ 0 < rd.remaining ∧ replaces rd.next s
        let x := { rd with skipped := min 65535 (rd.skipped + 1), next := rd.next + 1, remaining := rd.remaining - 1 }
        (¬ skips → (rd.mode = .collecting → 0 < rd.remaining ∧ rd.collected.length < 8) → t.reader = some rd) ∧
          (skips → (rd.mode = .collecting → 1 < rd.remaining ∧ rd.collected.length < 8) → t.reader = some x) ∧
          (skips → rd.mode = .collecting → rd.remaining = 1 ∨ 8 ≤ rd.collected.length →
            (s.line.slots[(3 : TelegramClass)] ≠ .vacant →
              t.reader = some { x with mode := .ready, ends := decide (x.remaining = 0) }) ∧
            (s.line.slots[(3 : TelegramClass)] = .vacant →
              t.reader = some { x with mode := .placed, ends := decide (x.remaining = 0), skipped := 0, collected := [] } ∧
                t.line.slots[(3 : TelegramClass)] =
                  .waiting ⟨destOf x.requester, .history x.tag (decide (x.remaining = 0)) true x.skipped x.collected⟩ 0))) ∧
      (∀ h, s.marks.holds = [h] → h.state ≠ .filling → journalOrdered s →
        let walks := fun n : JournalNo => h.state = .copying ∧ h.walk = some n ∧ replaces n s
        let stays := fun x : Hold => t.journal = s.journal.write r ∧ t.marks = { s.marks with holds := [x] }
        ((∀ n, ¬ walks n) → stays h) ∧
          ∀ n oldest, walks n → s.journal.records.head? = some oldest →
            let lost := h.start ≤ oldest.date.time ∧ oldest.date.time ≤ h.stop
            (h.isPartial = true ∨ ¬ lost → stays { h with walk := some (n + 1) }) ∧
              (h.isPartial = false → lost →
                ∃ q, t.journal = s.journal.writeAll [r, q] ∧ q.uncertain = false ∧
                  tells q .hold ⟨s.clock.lineTime, s.clock.cls⟩ h.mark.originator.val 1 (some h.mark.number.toNat) ∧
                  t.marks = { s.marks with holds := [{ h with isPartial := true, walk := some (n + 2) }] }))

/-- When the oldest record queued has waited 20 ms the sender, if it is NONE, forms a NEWS telegram of up to 8 of the oldest records with the next
sequence and the gap count, which returns to 0, and offers it to the arbiter. -/
def Obligations.TheBatchWaitFormsNews : Prop :=
  ∀ (s : State) (q : Record × OscTime) (rest : List (Record × OscTime)),
    s.news.queue = q :: rest → q.2 + 200000 ≤ s.clock.osc → s.news.sender = .idle → s.line.running = true →
      let n : NewsTelegram :=
        { sequence := s.news.nextSequence, gap := s.news.gap, records := (s.news.queue.take 8).map Prod.fst }
      ∃ t, exec .newsBatchWaitEnd s = .next t ∧
        t.news = { s.news with
          queue := s.news.queue.drop 8, gap := 0, nextSequence := s.news.nextSequence + 1, sender := t.news.sender } ∧
        (s.line.slots[(2 : TelegramClass)] = .vacant → s.query.answers = [] ∨ s.line.newsFilledLast = false →
          t.news.sender = .placed n ∧
            t.line = { s.line with
              slots := setAt s.line.slots 2 (.waiting ⟨63, .news n⟩ 0), newsFilledLast := true }) ∧
        (s.line.slots[(2 : TelegramClass)] ≠ .vacant → t.news.sender = .formed n ∧ t.line = s.line) ∧
        (∀ a more, s.line.slots[(2 : TelegramClass)] = .vacant → s.query.answers = a :: more →
          s.line.newsFilledLast = true → t.news.sender = .formed n ∧
            t.line = { s.line with
              slots := setAt s.line.slots 2 (.waiting (answerTelegram a) 0), newsFilledLast := false }) ∧
        onlyChanges [.news, .line, .alarms] s t

/-- A NEWS telegram of 1 to 8 records is in order where its sequence follows the last one heard of its station, or none was, and it
carries no gap. Out of order, the gap is counted and every watch entry of the station becomes UNCERTAIN; then the sequence is kept and the
records are taken in order, each by the watch entry of its input, so that an entry holds in the end what the last record of its input
gives, and else UNCERTAIN after a gap and what it held without one. The points and check entries that name an input are told of it as it happens:
by a report of each entry that a gap made UNCERTAIN, then by each record that an entry takes. An entry that is left is one that stood before, with no more
references; where no check entry names an input of the station every entry is left as it stood but for its condition. -/
def Obligations.NewsIsTakenInOrder : Prop :=
  ∀ (s : State) (source : Station) (sequence : BitVec 16) (gap : Byte) (records : List Record),
    receiving source s → 1 ≤ records.length → records.length ≤ 8 →
      let inOrder := s.news.lastSequence[source] = none ∨ (s.news.lastSequence[source] = some (sequence - 1) ∧ gap = 0)
      let heard := heardFrom source (newsTelegram source sequence gap records) s
      let after := fun w : WatchEntry =>
        if w.station = source then
          { w with condition := conditionAfter records w.input (if inOrder then w.condition else .uncertain) }
        else w
      ∃ t, exec (.news source sequence gap records) s = .next t ∧
        Delivered (heard.setNews
          { heard.news with
            lastSequence := setAt s.news.lastSequence source (some sequence)
            counters := { s.news.counters with
              gapsHeard := (if inOrder then s.news.counters.gapsHeard else min 65535 (s.news.counters.gapsHeard + 1)) } }) t ∧
        (∃ u v, (inOrder → u = heard) ∧
          (¬ inOrder → gapReported source
            (heard.setNews { heard.news with
              counters := { s.news.counters with gapsHeard := min 65535 (s.news.counters.gapsHeard + 1) } }) u) ∧
          inTurn (heardRecord source) records
            (u.setNews { u.news with lastSequence := setAt u.news.lastSequence source (some sequence) }) v ∧
          t = relatch v) ∧
        (∀ w ∈ t.watch, ∃ v ∈ s.watch, w = { after v with refs := w.refs } ∧ w.refs ≤ v.refs) ∧
        ((∀ (e : EntryNo) (c : CheckEntry) (i : InputNo) (edge : Edge), s.checks[e] = some c → c.subject ≠ .input source i edge) →
          t.watch = s.watch.map after)

/-- HISTORY is answered by the first of its cases that holds: BAD_VALUE for a source above 1 or dates out of order, BUSY while a read is
in service, NO_SUCH for a hold that is not there, and else ACCEPTED with the count and the first and last number in scope; the read waits
for the news, its hold is in use, and the news unit is asked to flush its newest record queued, or else the last of its telegram formed or on the
line: its sender looks at once. (Next is 0 where a hold's scope is empty: log entry 22.) -/
def Obligations.HistoryReadsAreAcceptedOrRefused : Prop :=
  ∀ (s : State) (source : Station) (tag : Byte) (args : List Byte), takesQuery source s → args.length = 19 →
    let fromDate := numberAt args 3 7
    let toDate := numberAt args 10 7
    let kind := (byteAt args 0).toNat
    let refusedAs := fun result => refused (.history source tag args) ⟨source, tag, 4, args, some 19, false⟩ result s
    (2 ≤ kind ∨ toDate < fromDate → refusedAs .badValue) ∧
      (kind ≤ 1 → fromDate ≤ toDate → s.reader.isSome = true → refusedAs .busy) ∧
      (kind = 1 → fromDate ≤ toDate → s.reader = none →
        (∀ h ∈ s.marks.holds, ¬ (h.mark.originator.val = (byteAt args 1).toNat ∧ h.mark.number = byteAt args 2)) →
          refusedAs .noSuch) ∧
      ∀ src : ReadSource,
        (kind = 0 ∧ src = .journal) ∨
          (kind = 1 ∧ ∃ h ∈ s.marks.holds, src = .hold h.mark.originator h.mark.number ∧
            h.mark.originator.val = (byteAt args 1).toNat ∧ h.mark.number = byteAt args 2) →
        fromDate ≤ toDate → s.reader = none →
          let scope := match src with
            | .journal => s.journal.records
            | .hold o n => ((s.marks.holds.find? fun h : Hold => decide (h.identity = (o, n))).map Hold.records).getD []
          let target := match s.news.queue.getLast?, s.news.sender with
            | some q, _ => some q.1.number
            | none, .formed n => n.records.getLast?.map Record.number
            | none, .placed n => n.records.getLast?.map Record.number
            | none, .idle => none
          let numberOf := fun r : Option Record => (r.map fun x => x.number.toNat).getD 0
          let data := beBytes 2 scope.length ++ beBytes 4 (numberOf scope.head?) ++ beBytes 4 (numberOf scope.getLast?)
          let answer : Answer := { answerTo source tag 4 .accepted data with forRead := true }
          let rd : Read :=
            { mode := .newsWait, requester := source, tag := tag, source := src, fromDate := fromDate, toDate := toDate
              mask := BitVec.ofNat 16 (numberAt args 17 2), next := (scope.head?.map Record.number).getD 0, position := 0
              remaining := scope.length, skipped := 0, collected := [], ends := false, target := target
              answered := false }
          let marks : MarkUnit := { s.marks with
            holds := s.marks.holds.map fun h =>
              if src = .hold h.mark.originator h.mark.number then { h with inUse := true } else h }
          let asked := ((heardQuery ⟨source, tag, 4, args, some 19, false⟩ s).setReader (some rd)).setMarks marks
          ∃ t u v, exec (.history source tag args) s = .next t ∧
            t.reader = some rd ∧ t.query.answers = s.query.answers ++ [answer] ∧
            (target.isSome = true → t.news.flushTarget = target) ∧ t.marks = marks ∧
            (target = none → u = asked) ∧
            (target.isSome = true → senderLooked (asked.setNews { asked.news with flushTarget := target }) u) ∧
            classTwoFilled (withAnswer answer u) v ∧ t = relatch v ∧
            onlyChanges [.line, .news, .query, .reader, .marks, .alarms] s t

/-- HISTORY CANCEL ends the read of its own requester at once, frees its hold, and is answered OK; it is answered NOT_YOURS for another's
read, NO_SUCH for none. A visit takes the next record of the read's scope into the telegram where its date and its kind are asked for, and
counts it off; with 8 records, or with nothing left, the HISTORY telegram is made: placed in an EMPTY class 3 slot at once, else READY.
(The number that `next` holds after the last record of a scope is the model's choice, log entry 22.) -/
def Obligations.HistoryVisitsCollectUntilCancelled : Prop :=
  (∀ (s : State) (source : Station) (tag : Byte), takesQuery source s →
    let c : Instr := .historyCancel source tag []
    let refusedAs := fun result => refused c ⟨source, tag, 5, [], some 0, false⟩ result s
    (s.reader = none → refusedAs .noSuch) ∧
      (∀ rd, s.reader = some rd → rd.requester ≠ source → refusedAs .notYours) ∧
      ∀ rd, s.reader = some rd → rd.requester = source →
        ∃ t, exec c s = .next t ∧ t.reader = none ∧
          t.query.answers = (s.query.answers.map fun a => { a with forRead := false }) ++ [answerTo source tag 5 .ok []] ∧
          t.marks = { s.marks with
            holds := s.marks.holds.map fun h =>
              if rd.source = .hold h.mark.originator h.mark.number then { h with inUse := false } else h } ∧
          onlyChanges [.line, .news, .query, .reader, .marks, .alarms] s t) ∧
    ∀ (s : State) (rd : Read) (r : Record), s.reader = some rd → rd.mode = .collecting → 0 < rd.remaining →
      ((rd.source = .journal ∧ recordAt s.journal rd.next = some r) ∨
        (∃ o n, rd.source = .hold o n ∧
          (((s.marks.holds.find? fun h : Hold => decide (h.identity = (o, n))).map Hold.records).getD [])[rd.position]? = some r)) →
        let wanted := rd.fromDate ≤ r.date.time ∧ r.date.time ≤ rd.toDate ∧ kindNumber r.kind ≤ 10 ∧
          rd.mask.getLsbD (kindNumber r.kind) = true
        ∃ (t : State) (x : Read), exec .historyVisit s = .next t ∧
          x = { rd with
            next := x.next, position := rd.position + 1, remaining := rd.remaining - 1
            collected := (if wanted then rd.collected ++ [r] else rd.collected) } ∧
          (rd.source = .journal → x.next = rd.next + 1) ∧
          (x.remaining ≠ 0 → x.collected.length < 8 → t.reader = some x ∧ t.line = s.line) ∧
          (x.remaining = 0 ∨ 8 ≤ x.collected.length → s.line.slots[(3 : TelegramClass)] ≠ .vacant →
            t.reader = some { x with mode := .ready, ends := decide (x.remaining = 0) } ∧ t.line = s.line) ∧
          (x.remaining = 0 ∨ 8 ≤ x.collected.length → s.line.slots[(3 : TelegramClass)] = .vacant →
            t.reader = some { x with mode := .placed, ends := decide (x.remaining = 0), skipped := 0, collected := [] } ∧
              t.line = { s.line with
                slots := setAt s.line.slots 3 (.waiting
                  ⟨destOf x.requester, .history x.tag (decide (x.remaining = 0)) (decide (0 < x.skipped)) x.skipped x.collected⟩
                  0) }) ∧
          onlyChanges [.reader, .line, .alarms] s t

/-! ### The points -/

/-- A point's start deadline writes FAILED_TO_START and returns it to the side it stands on, start-failed set; its stroke deadline writes
OVERTIME and keeps the call and the loss. Both outcomes are dated at the deadline with the class in force, POINT is latched for them, and
a definition that asks for a mark raises one of reason POINT, from 120 s before the deadline to 60 s after it. The record is handed on to the
check entries of the point, and the mark follows it. -/
def Obligations.PointDeadlinesExpire : Prop :=
  ∀ (s : State) (p : PointNo) (dfn : PointDef) (toward : Side) (call loss : Date) (d : LineTime),
    s.points[p].defn = some dfn → d ≤ s.clock.lineTime →
      let date : Date := ⟨d, s.clock.cls⟩
      let follows := fun (r : Record) (outcome : PointOutcome) (t : State) =>
        wroteFirst r s t ∧ t.query.latched.getLsbD 5 = true ∧
          (dfn.markOnFailure = false → entriesOfPoint s p = [] → justWrote r (s.setPoints t.points) t) ∧
          (∃ u v, justWrote r (s.setPoints t.points) u ∧ deliveredToEntries p outcome t.points[p].state date u v ∧
            (dfn.markOnFailure = false → t = relatch v)) ∧
          (dfn.markOnFailure = true → raisedMark r 0 (byteOf p.val) d 120 60 s t)
      (s.points[p].state = .called toward call d →
        ∃ t r, exec (.startDeadline p) s = .next t ∧
          t.points = setAt s.points p
            { s.points[p] with
              state := .detected toward.other, startFailed := true, lastOutcome := some (.failedToStart, date) } ∧
          follows r .failedToStart t ∧ tells r .point date p.val 5 none ∧ r.uncertain = (doubtfulDate call || doubtfulDate date)) ∧
      (s.points[p].state = .moving toward call loss d →
        ∃ t r, exec (.strokeDeadline p) s = .next t ∧
          t.points = setAt s.points p
            { s.points[p] with state := .overtime toward call loss, lastOutcome := some (.overtime, date) } ∧
          follows r .overtime t ∧ tells r .point date p.val 4 none ∧ r.uncertain = (doubtfulDate loss || doubtfulDate date))

/-- A record that gives a point's references a level is taken by each that names its input, one after the other in reference order, each whole
before the next (R125). A call starts a movement, its withdrawal ends it; the loss of the detection the point stands on sets it moving where the
call stands, each with its deadline, and makes it LOST where it does not; a deadline already past as it is set falls due at once, after that
transition, FAILED_TO_START or OVERTIME, dated at the deadline (R133). The detection it moves toward ends it, MOVED or, against a trend of 4 samples or
more, MOVED_SLOW where 4 strokes exceed 5 trends; the trend then takes an eighth of the difference unless the outcome is UNCERTAIN; the
detection it came from ends it RETURNED, with no trend changed, and in OVERTIME either ends it MOVED_LATE. Each end is counted; where the service
counter wraps, an interval above 0 sets service-due and writes SERVICE. Both detections present make it BOTH; for LOST, BOTH and a deadline a
definition that asks for a mark raises one. Each outcome is handed on to the check entries of the point. A detection gained in LOST or lost in BOTH restores
it. A change of a call that makes no transition clears start-failed alone. References no longer known make it UNKNOWN, by a record or by a report of
their watch entry; the record that makes the last of the four known makes it KNOWN, its state from the two detections. -/
def Obligations.MovementsAreTimed : Prop :=
  ∀ (s : State) (p : PointNo) (dfn : PointDef) (station : Station) (input : InputNo), s.points[p].defn = some dfn →
    let refs := referencesOf dfn station input
    (∀ (r : Record) (level : Level) (date : Date), conditionFrom r = some (.known level date) →
      (s.points[p].state ≠ .unknown →
        inTurn (fun ref => referenceTaken p dfn ref level date) refs s (deliverToPoint station input r p s)) ∧
      (s.points[p].state = .unknown → sightGained p refs level date s (deliverToPoint station input r p s))) ∧
    (∀ r : Record, conditionFrom r = some .chattering → refs ≠ [] →
      (s.points[p].state ≠ .unknown → losesSight p refs .chattering r.date s (deliverToPoint station input r p s)) ∧
      (s.points[p].state = .unknown →
        let t := deliverToPoint station input r p s
        t.points = setAt s.points p { s.points[p] with views := viewsWith refs .chattering s.points[p].views } ∧
          onlyChanges [.points, .alarms] s t)) ∧
    (refs ≠ [] →
      (s.points[p].state ≠ .unknown →
        losesSight p refs .uncertain ⟨s.clock.lineTime, s.clock.cls⟩ s (reportToPoint station input p s)) ∧
      (s.points[p].state = .unknown →
        let t := reportToPoint station input p s
        t.points = setAt s.points p { s.points[p] with views := viewsWith refs .uncertain s.points[p].views } ∧
          onlyChanges [.points, .alarms] s t))

/-- R131. In OVERTIME the detection of either side becoming ACTIVE ends the movement: the point is DETECTED on that side, the stroke and
the operate time are worked out from the new detection's date, MOVED_LATE is written with the stroke, the movement is counted, SERVICE written
where the counter wraps with an interval above 0, and no trend changes. No deadline is held in OVERTIME, and a call that changes leaves the state. -/
def Obligations.AnOvertimeMovementEndsLate : Prop :=
  ∀ (s : State) (p : PointNo) (dfn : PointDef) (toward side : Side) (call loss : Date) (station : Station) (input : InputNo)
      (r : Record) (level : Level) (found : Date),
    s.points[p].state = .overtime toward call loss → s.points[p].defn = some dfn →
    conditionFrom r = some (.known level found) → s.points[p].service ≤ 16777215 →
      s.points[p].state.deadline = none ∧
      (∀ before, dfn.naming station input = [side.detection] → level = .active →
        s.points[p].views.at side.detection = .known .inactive before →
          let t := deliverToPoint station input r p s
          let stroke := min 2147483647 ((found.time - loss.time) / 1000)
          (∃ q, wroteFirst q s t ∧ tells q .point found p.val 2 (some stroke) ∧
            movementCounted p dfn.interval .movedLate q found s t) ∧
            t.points[p].state = .detected side ∧ t.points[p].lastStroke = some stroke ∧
            t.points[p].lastOperate = some (min 2147483647 ((found.time - call.time) / 1000)) ∧
            t.points[p].trendNormal = s.points[p].trendNormal ∧ t.points[p].trendReverse = s.points[p].trendReverse ∧
            t.points[p].service = (s.points[p].service + 1) % 16777216) ∧
      (∀ side' : Side, dfn.naming station input = [side'.call] →
        (deliverToPoint station input r p s).points[p].state = .overtime toward call loss)

/-- SERVICE RESET preloads the counter of a defined point to 2^24 − interval, or 0 for interval 0, clears service-due, writes nothing and
answers with the counter; READ POINT changes nothing and answers with the point's fields in their order and widths, those that no rule states
free (log entry 16). Both answer
BAD_VALUE above point 31 and NO_SUCH for an undefined point. -/
def Obligations.ServiceResetAndReadPoint : Prop :=
  ∀ (s : State) (source : Station) (tag b : Byte), takesQuery source s →
    let reset : Instr := .serviceReset source tag [b]
    let read : Instr := .readPoint source tag [b]
    (32 ≤ b.toNat → refused read ⟨source, tag, 11, [b], some 1, false⟩ .badValue s ∧
      (s.config.state ≠ .unconfigured → refused reset ⟨source, tag, 10, [b], some 1, true⟩ .badValue s)) ∧
      ∀ p : PointNo, p.val = b.toNat →
        (s.points[p].defn = none → refused read ⟨source, tag, 11, [b], some 1, false⟩ .noSuch s ∧
          (s.config.state ≠ .unconfigured → refused reset ⟨source, tag, 10, [b], some 1, true⟩ .noSuch s)) ∧
        ∀ dfn, s.points[p].defn = some dfn →
          let counter := if dfn.interval = 0 then 0 else 16777216 - dfn.interval
          (s.config.state ≠ .unconfigured → ∃ t, exec reset s = .next t ∧
            t.points = setAt s.points p { s.points[p] with service := counter, serviceDue := false } ∧
            t.query.answers = s.query.answers ++ [answerTo source tag 10 .ok (beBytes 3 counter)] ∧
            onlyChanges [.line, .news, .query, .points, .alarms] s t) ∧
          (∃ t free, exec read s = .next t ∧
            t.query.answers = s.query.answers ++ [answerTo source tag 11 .ok (spelt (pointLayout free dfn s.points[p]))] ∧
            onlyChanges [.line, .news, .query, .choices, .alarms] s t)

/-! ### The timetable checks -/

/-- At its opening a check entry is OPEN with no match, doubtful where its subject is, and its one deadline is its close plus the settle;
one whose decision line time has passed as well is decided at once, MISSED. Of the matches that come to an OPEN entry it holds, in the
end, the earliest of those within its window, both ends included, whatever their order. What matches an INPUT subject is an INPUT record
of its input with code ACTIVE or INACTIVE, as its edge asks; what matches a POINT subject is a MOVED, MOVED_SLOW or MOVED_LATE of its
point that enters its target. Every record delivered, and every report, sets the view, and the doubt flag where it leaves an OPEN or
MATCHED entry's subject doubtful; a DONE entry and an entry of another subject take nothing. -/
def Obligations.OpenEntriesHoldTheEarliestMatch : Prop :=
  (∀ (s : State) (e : EntryNo) (c : CheckEntry), s.checks[e] = some c → c.sound → c.phase = .waiting →
    c.openAt ≤ s.clock.lineTime →
      (s.clock.lineTime < c.closeAt + c.settle * 1000000 →
        ∃ t, exec (.checkOpening e) s = .next t ∧
          t.checks = setAt s.checks e (some
            { c with
              phase := .opened, held := none, doubt := decide (c.view ≠ .known)
              deadline := some (c.closeAt + c.settle * 1000000) }) ∧
          onlyChanges [.checks, .alarms] s t) ∧
      (c.closeAt + c.settle * 1000000 ≤ s.clock.lineTime →
        ∃ t r, exec (.checkOpening e) s = .next t ∧ wroteFirst r s t ∧
          tells r .check ⟨c.closeAt, s.clock.cls⟩ e.val 3 none ∧ t.query.latched.getLsbD 6 = true)) ∧
    (∀ (c : CheckEntry) (dates : List Date), c.phase = .opened → c.held = none →
      let x := dates.foldl CheckEntry.consider c
      let inWindow := fun d : Date => c.openAt ≤ d.time ∧ d.time ≤ c.closeAt
      (∀ d, x.held = some d → d ∈ dates ∧ inWindow d ∧ (∀ y ∈ dates, inWindow y → d.time ≤ y.time) ∧
        x.phase = .matched ∧ x.deadline = some (d.time + c.settle * 1000000)) ∧
      (x.held = none ↔ ∀ y ∈ dates, ¬ inWindow y)) ∧
    (∀ (s : State) (e : EntryNo) (c : CheckEntry) (station : Station) (input : InputNo) (edge : Edge) (r : Record)
      (condition : Condition), s.checks[e] = some c → c.subject = .input station input edge → conditionFrom r = some condition →
      let matching := r.kind = .input ∧
        ((r.code.toNat = 1 ∧ (edge = .toActive ∨ edge = .any)) ∨ (r.code.toNat = 0 ∧ (edge = .toInactive ∨ edge = .any)))
      (c.phase ≠ .done →
        entryTakes e c (if r.kind = .chatter then .chattering else .known) matching r.date s
          (deliverInputToCheck station input r e s) ∧
        entryTakes e c .uncertain False r.date s (reportToCheck station input e s)) ∧
      (∀ (st : Station) (i : InputNo), c.phase = .done ∨ (st, i) ≠ (station, input) →
        deliverInputToCheck st i r e s = s ∧ reportToCheck st i e s = s)) ∧
    (∀ (s : State) (e : EntryNo) (c : CheckEntry) (p : PointNo) (target : Side) (outcome : PointOutcome) (entered : PointState)
      (date : Date), s.checks[e] = some c → c.subject = .point p target →
      let matching := (outcome = .moved ∨ outcome = .movedSlow ∨ outcome = .movedLate) ∧ entered = .detected target
      (c.phase ≠ .done →
        entryTakes e c (if outcome = .unknown then .unknown else .known) matching date s
          (deliverPointToCheck p outcome entered date e s)) ∧
      ∀ q : PointNo, c.phase = .done ∨ q ≠ p → deliverPointToCheck q outcome entered date e s = s)

/-- At its decision an entry with a match held is EARLY, ON_TIME or LATE by its unrounded deviation d = match − due against its
tolerances, one with none is MISSED; the CHECK record carries the outcome, the match's date and d in tenths of a second rounded to nearest
with halves away from zero, or the close and no value; d lies within the watch before and after (within −due where open was taken as 0).
MISSED is an event of CHECK, and where the entry asks for one raises a mark of reason CHECK, from 600 s before the close to 60 s after it. The
entry keeps the outcome and is DONE, its doubt flag as it was (log entry 37), with its watch reference on a remote input given back, or WAITING
for its next occurrence. -/
def Obligations.CheckDecisionsFollowTheDeviation : Prop :=
  roundHalfAway 47346200 100000 = 473 ∧ roundHalfAway (-250000) 100000 = -3 ∧
    (∀ n : Int, roundsTo n 100000 (roundHalfAway n 100000)) ∧
    ∀ (s : State) (e : EntryNo) (c : CheckEntry) (x : LineTime), s.checks[e] = some c → c.sound →
      c.phase = .opened ∨ c.phase = .matched → c.deadline = some x → x ≤ s.clock.lineTime →
      let next : CheckEntry :=
        if c.period = 0 then { c with phase := .done, deadline := none }
        else if c.repeatsLeft = 1 then { c with phase := .done, deadline := none, repeatsLeft := 0 }
        else
          { c with
            phase := .waiting, due := c.due + c.period * 1000000, openAt := c.openAt + c.period * 1000000
            closeAt := c.closeAt + c.period * 1000000, held := none, doubt := false, repeatsLeft := c.repeatsLeft - 1
            deadline := some (c.openAt + c.period * 1000000) }
      let doubtful := fun cls : ClockClass => cls = .drifting ∨ cls = .unset
      let once := c.period = 0 ∨ c.repeatsLeft = 1 ∨ s.clock.lineTime < c.openAt + c.period * 1000000
      let watch := match next.phase, c.subject with
        | .done, .input station input _ => if station = own s then s.watch else referenceGivenBack (station, input) s.watch
        | _, _ => s.watch
      let keeps := fun (l : LastCheck) (t : State) =>
        t.checks = setAt s.checks e (some { next with last := some l }) ∧ t.watch = watch
      let unmarked := fun (r : Record) (t : State) => justWrote r ((s.setChecks t.checks).setWatch t.watch) t
      (∀ m, c.held = some m →
        let d : Int := (m.time : Int) - c.due
        let outcome : CheckOutcome :=
          if d < -(c.earlyTolerance : Int) * 1000000 then .early
          else if d ≤ (c.lateTolerance : Int) * 1000000 then .onTime else .late
        ∃ t r, exec (.checkDecision e) s = .next t ∧ wroteFirst r s t ∧
          tells r .check m e.val (checkCode outcome) (some (roundHalfAway d 100000)) ∧
          (r.uncertain = true ↔ c.doubt = true ∨ doubtful m.cls ∨ s.clock.cls = .drifting) ∧
          (once → keeps ⟨outcome, r.uncertain, roundHalfAway d 100000⟩ t ∧ unmarked r t) ∧
          -(c.watchBefore * 1000000 : Int) ≤ d ∧ -(c.due : Int) ≤ d ∧ d ≤ c.watchAfter * 1000000) ∧
      (c.held = none →
        ∃ t r, exec (.checkDecision e) s = .next t ∧ wroteFirst r s t ∧
          tells r .check ⟨c.closeAt, s.clock.cls⟩ e.val 3 none ∧
          (r.uncertain = true ↔ c.doubt = true ∨ s.clock.cls = .drifting) ∧ t.query.latched.getLsbD 6 = true ∧
          (once → keeps ⟨.missed, r.uncertain, 0⟩ t ∧ (c.markOnMiss = false → unmarked r t) ∧
            (c.markOnMiss = true → raisedMark r 1 (byteOf e.val) c.closeAt 600 60 s t)))

/-- Every check entry keeps its shape, whatever step is taken: its window and tolerances, a match within the window, and the one deadline
of its state. So does every point: an undefined one is UNKNOWN, a defined one exactly while a reference of its four is not known; in its other
states its two detections, and the call in CALLED, are as its state says, and CALLED and MOVING hold the deadline of their limit. -/
def Obligations.CheckEntriesStaySound : Prop :=
  (∀ s t : State, entriesSound s → step s = .next t → entriesSound t) ∧
    ∀ s t : State, pointsSound s → quietWhileReading s → step s = .next t → pointsSound t

/-- POST CHECK's fields are taken from its argument bytes, and it is answered by the first of its cases that holds; OK takes the entry, advanced
by the fewest periods that bring close plus settle to line time or later, with the watch reference of a remote input, and answers that number. The
reference counts one more in the pair's entry, or makes one, NEVER_HEARD, where there is room; the subject's view is its condition as it then stands.
An entry whose open has come is OPEN at once; one whose close plus settle falls exactly at line time is decided at once, MISSED: it is DONE, its
reference given back, or waits for its next occurrence, OPEN where that has begun. -/
def Obligations.PostCheckTakesTheFirstCase : Prop :=
  ∀ (s : State) (source : Station) (tag : Byte) (args : List Byte), takesQuery source s → args.length = 23 →
    s.config.state ≠ .unconfigured →
    let c : Instr := .postCheck source tag args
    let p := postingOf args
    let refusedAs := fun result => refused c ⟨source, tag, 1, args, some 23, true⟩ result s
    let last := p.closeAt + s.settings.settle * 1000000
    let u1 := fun k => (byteAt args k).toNat
    let u2 := fun k => u1 k * 256 + u1 (k + 1)
    postingLaidOut u1 u2 (fun k => u1 k * 65536 + u2 (k + 1)) p ∧
    ((∃ x, s.checks[p.entry] = some x ∧ x.phase ≠ .done) → refusedAs .inUse) ∧
    ((∀ x, s.checks[p.entry] = some x → x.phase = .done) →
      (p.subject = none → refusedAs .badValue) ∧
      ∀ subject, p.subject = some subject →
        (subjectBarred s subject ∨ 86399 < p.dueSecond → refusedAs .badValue) ∧
        (¬ subjectBarred s subject → p.dueSecond ≤ 86399 →
          (s.clock.cls = .unset → refusedAs .noTime) ∧
          (s.clock.cls ≠ .unset →
            (p.period = 0 → last < s.clock.lineTime → refusedAs .past) ∧
            (p.period ≠ 0 ∨ s.clock.lineTime ≤ last →
              (∀ pair, pairNeeded s subject = some pair → ¬ watched pair s.watch → 48 ≤ s.watch.length →
                refusedAs .watchFull) ∧
              ((∀ pair, pairNeeded s subject = some pair → watched pair s.watch ∨ s.watch.length < 48) →
                ∃ (t : State) (k : Nat) (taken : List WatchEntry), exec c s = .next t ∧
                  (pairNeeded s subject = none → taken = s.watch) ∧
                  (∀ pair, pairNeeded s subject = some pair → referenceAdded pair s.watch taken) ∧
                  t.query.answers = s.query.answers ++ [answerTo source tag 1 .ok (beBytes 2 (min 65535 k))] ∧
                  (s.clock.lineTime ≤ last → k = 0) ∧ s.clock.lineTime ≤ last + k * (p.period * 1000000) ∧
                  (∀ j < k, last + j * (p.period * 1000000) < s.clock.lineTime) ∧
                  let period := p.period * 1000000
                  let posted : CheckEntry :=
                    { phase := .waiting, subject := subject, due := p.due + k * period, openAt := p.openAt + k * period
                      closeAt := p.closeAt + k * period, watchBefore := p.watchBefore, watchAfter := p.watchAfter
                      earlyTolerance := p.earlyTolerance, lateTolerance := p.lateTolerance, period := p.period
                      repeatsLeft := p.repeats, settle := s.settings.settle, markOnMiss := p.markOnMiss
                      view := viewAtPosting s taken subject, doubt := false, held := none
                      deadline := some (p.openAt + k * period), last := none }
                  let doubt := decide (posted.view ≠ .known)
                  (s.clock.lineTime < posted.openAt →
                    t.checks = setAt s.checks p.entry (some posted) ∧ t.watch = taken ∧
                      onlyChanges [.line, .news, .query, .watch, .checks, .alarms] s t) ∧
                  (posted.openAt ≤ s.clock.lineTime → s.clock.lineTime < last + k * period →
                    t.checks = setAt s.checks p.entry (some
                        { posted with phase := .opened, doubt := doubt, deadline := some (last + k * period) }) ∧
                      t.watch = taken ∧ onlyChanges [.line, .news, .query, .watch, .checks, .alarms] s t) ∧
                  (s.clock.lineTime = last + k * period →
                    let ends := p.period = 0 ∨ p.repeats = 1
                    ∃ r, wroteFirst r (withAnswer (answerTo source tag 1 .ok (beBytes 2 (min 65535 k)))
                        (heardQuery ⟨source, tag, 1, args, some 23, true⟩ s)) t ∧
                      tells r .check ⟨posted.closeAt, s.clock.cls⟩ p.entry.val 3 none ∧
                      (r.uncertain = true ↔ doubt = true ∨ s.clock.cls = .drifting) ∧ t.query.latched.getLsbD 6 = true ∧
                      (p.markOnMiss = true → raisedMark r 1 (byteOf p.entry.val) posted.closeAt 600 60 s t) ∧
                      (ends →
                        t.checks = setAt s.checks p.entry (some
                          { posted with
                            phase := .done, doubt := doubt, deadline := none, last := some ⟨.missed, r.uncertain, 0⟩
                            repeatsLeft := if p.period = 0 then p.repeats else 0 }) ∧
                        t.watch = (match pairNeeded s subject with
                          | some pair => referenceGivenBack pair taken
                          | none => s.watch)) ∧
                      (¬ ends →
                        let opens := posted.openAt + period ≤ s.clock.lineTime
                        t.checks = setAt s.checks p.entry (some
                          { posted with
                            phase := if opens then .opened else .waiting
                            due := posted.due + period, openAt := posted.openAt + period, closeAt := posted.closeAt + period
                            repeatsLeft := p.repeats - 1, doubt := if opens then doubt else false
                            deadline := some (if opens then last + (k + 1) * period else posted.openAt + period)
                            last := some ⟨.missed, r.uncertain, 0⟩ }) ∧
                        t.watch = taken)))))))

/-- WITHDRAW CHECK empties an entry at once, gives back the watch reference of an active one, writes nothing and is answered OK; READ
CHECK answers with the entry's fields in their order and widths (the station of a POINT subject free, log entry 16) and changes nothing in it. Both are answered EMPTY for an empty entry. -/
def Obligations.WithdrawAndReadCheck : Prop :=
  ∀ (s : State) (source : Station) (tag : Byte) (e : EntryNo), takesQuery source s →
    let withdraw : Instr := .withdrawCheck source tag [BitVec.ofFin e]
    let read : Instr := .readCheck source tag [BitVec.ofFin e]
    (s.checks[e] = none → refused withdraw ⟨source, tag, 2, [BitVec.ofFin e], some 1, false⟩ .isEmpty s ∧
      refused read ⟨source, tag, 3, [BitVec.ofFin e], some 1, false⟩ .isEmpty s) ∧
      ∀ c, s.checks[e] = some c →
        (∃ t, exec withdraw s = .next t ∧ t.checks = setAt s.checks e none ∧
          (∀ st i edge, c.subject = .input st i edge → c.phase ≠ .done → st ≠ own s →
            t.watch = referenceGivenBack (st, i) s.watch) ∧
          ((c.phase = .done ∨ (∃ p side, c.subject = .point p side) ∨ (∃ i edge, c.subject = .input (own s) i edge)) →
            t.watch = s.watch) ∧
          t.query.answers = s.query.answers ++ [answerTo source tag 2 .ok []] ∧
          onlyChanges [.line, .news, .query, .watch, .checks, .alarms] s t) ∧
        (∃ t free, exec read s = .next t ∧
          t.query.answers = s.query.answers ++ [answerTo source tag 3 .ok (spelt (checkLayout free c))] ∧
          onlyChanges [.line, .news, .query, .choices, .alarms] s t)

/-! ### Marks and holds -/

/-- A heard mark of an identity not held makes a hold where the table has room, its window the mark's time less the pre-window to plus the
post-window, each clamped to 600 s and its close deadline 1 s after it, and writes MARK HEARD; where the table is full NOT_HELD is
written; of an identity held it does nothing. The hold stands last in the table, in the station's class, COPYING, its walk at the oldest record
also where the writes that follow replace one; it is PARTIAL where one that they replace lay in its window. A hold made while the store holds 1,024 records is closed TRUNCATED at once, with no record, and
HOLD TRUNCATED follows MARK HEARD (the close due flag it has where its close deadline is past is log entry 39). -/
def Obligations.HeardMarksMakeHolds : Prop :=
  ∀ (s : State) (source : Station) (number reason subject : Byte) (time : BitVec 56) (pre post : BitVec 16),
    receiving source s →
      let m : MarkInfo :=
        { originator := source, number := number, reason := reason, subject := subject, time := time.toNat
          pre := min 600 pre.toNat, post := min 600 post.toNat }
      let held := ∃ h ∈ s.marks.holds, h.identity = (source, number)
      let x := markTelegram source number reason subject time pre post
      let c : Instr := .mark source number reason subject time pre post
      ∃ t, exec c s = .next t ∧
        (held → t.news = (heardFrom source x s).news ∧ t.line = (heardFrom source x s).line ∧
          onlyChanges [.line, .news, .alarms] s t) ∧
        (¬ held → 4 ≤ s.marks.holds.length →
          ∃ r, justWrote r (heardFrom source x s) t ∧
            tells r .mark ⟨s.clock.lineTime, s.clock.cls⟩ source.val 2 (some number.toNat)) ∧
        (¬ held → s.marks.holds.length < 4 →
          let made := fun h : Hold => ∃ r,
            justWrote r ((heardFrom source x s).setMarks { s.marks with holds := s.marks.holds ++ [h] }) t ∧
              tells r .mark ⟨s.clock.lineTime, s.clock.cls⟩ source.val 1 (some number.toNat)
          (storeCount s.marks.holds < 1024 → made (newlyMade m s) ∧
            ∃ h, t.marks.holds.getLast? = some h ∧ t.marks.holds.length = s.marks.holds.length + 1 ∧ newlyHeld m s t h ∧
              (journalOrdered s → (∃ r ∈ replacedSince s t, h.start ≤ r.date.time ∧ r.date.time ≤ h.stop) →
                h.isPartial = true)) ∧
          (1024 ≤ storeCount s.marks.holds → (∃ h, truncatedAtOnce m s h ∧ made h) ∧
            ∃ r q h, tookInTurn r q s t ∧ tells r .mark ⟨s.clock.lineTime, s.clock.cls⟩ source.val 1 (some number.toNat) ∧
              tells q .hold ⟨s.clock.lineTime, s.clock.cls⟩ source.val 0 (some number.toNat) ∧
              t.marks.holds.getLast? = some h ∧ truncatedAtOnce m s h) ∧
          (storeCount s.marks.holds < 1024 → s.journal.records.length < 4096 → s.marks.holds = [] →
            ∃ h, t.marks.holds = [h] ∧ h.mark = m ∧ h.state = .copying ∧ h.records = [] ∧
              h.walk = some (oldestNumber s.journal) ∧ h.deadline = some (h.stop + 1000000) ∧
              (h.closeDue = true ↔ h.stop + 1000000 ≤ s.clock.lineTime)))

/-- RAISE MARK takes the own mark number, which moves on to the next that names no hold raised here, passes the MARK telegram to the
outgoing mark list unless the list is full, writes MARK RAISED, makes the hold of its window in the station's class, COPYING from the oldest record,
where the table has room, or TRUNCATED at once where the store has none, with HOLD TRUNCATED after it, writes NOT_HELD where the table has no room, and answers with the number, OK or HOLD_FULL (where a hold of that identity stands already, none is made and nothing more written,
log entry 21). RELEASE HOLD takes the hold out with its records, writes HOLD RELEASED and answers with the count; it is refused BUSY for a
hold in use, NO_SUCH for none. -/
def Obligations.MarksAreRaisedAndHoldsReleased : Prop :=
  (∀ (s : State) (source : Station) (tag : Byte) (args : List Byte), takesQuery source s → args.length = 12 →
      s.config.state ≠ .unconfigured →
      let n := s.marks.own
      let m : MarkInfo :=
        { originator := own s, number := n, reason := 2, subject := byteAt args 0, time := numberAt args 1 7
          pre := min 600 (numberAt args 8 2), post := min 600 (numberAt args 10 2) }
      let room := s.marks.holds.length < 4
      ∃ t r, exec (.raiseMark source tag args) s = .next t ∧ tookFirst r s t ∧
        tells r .mark ⟨s.clock.lineTime, s.clock.cls⟩ (own s).val 0 (some n.toNat) ∧
        (s.marks.holds.length ≤ 4 →
          ∃ j, j ≤ 4 ∧ t.marks.own = n + 1 + BitVec.ofNat 8 j ∧ (∀ h ∈ s.marks.holds, h.identity ≠ (own s, t.marks.own)) ∧
            ∀ i < j, ∃ h ∈ s.marks.holds, h.identity = (own s, n + 1 + BitVec.ofNat 8 i)) ∧
        (s.marks.outgoing.length < 8 → t.marks.outgoing = s.marks.outgoing ++ [m] ∧ t.marks.notSent = s.marks.notSent) ∧
        (8 ≤ s.marks.outgoing.length →
          t.marks.outgoing = s.marks.outgoing ∧ t.marks.notSent = min 65535 (s.marks.notSent + 1)) ∧
        (s.marks.outgoing = [] → s.line.slots[(1 : TelegramClass)] = .vacant →
          t.line.slots[(1 : TelegramClass)] = .waiting ⟨63, .mark m⟩ 0) ∧
        (room → (∀ h ∈ s.marks.holds, h.identity ≠ (own s, n)) →
          t.marks.holds.map Hold.mark = s.marks.holds.map Hold.mark ++ [m] ∧
          (storeCount s.marks.holds < 1024 →
            ∃ h, t.marks.holds.getLast? = some h ∧ newlyHeld m s t h ∧
              (journalOrdered s → (∃ r ∈ replacedSince s t, h.start ≤ r.date.time ∧ r.date.time ≤ h.stop) →
                h.isPartial = true)) ∧
          (1024 ≤ storeCount s.marks.holds →
            ∃ q h, tookInTurn r q s t ∧ tells q .hold ⟨s.clock.lineTime, s.clock.cls⟩ (own s).val 0 (some n.toNat) ∧
              t.marks.holds.getLast? = some h ∧ truncatedAtOnce m s h)) ∧
        (¬ room → t.marks.holds.map Hold.mark = s.marks.holds.map Hold.mark ∧
          ((∀ h ∈ s.marks.holds, h.identity ≠ (own s, n)) →
            ∃ q, tookInTurn r q s t ∧ tells q .mark ⟨s.clock.lineTime, s.clock.cls⟩ (own s).val 2 (some n.toNat))) ∧
        Delivered (withAnswer (answerTo source tag 6 (if room then .ok else .holdFull) [n])
          (heardQuery ⟨source, tag, 6, args, some 12, true⟩ s)) t ∧
        t.points = s.points ∧ t.checks = s.checks ∧ t.watch = s.watch) ∧
    ∀ (s : State) (source : Station) (tag a b : Byte), takesQuery source s →
      let c : Instr := .releaseHold source tag [a, b]
      let refusedAs := fun result => refused c ⟨source, tag, 7, [a, b], some 2, false⟩ result s
      ((∀ h ∈ s.marks.holds, ¬ (h.mark.originator.val = a.toNat ∧ h.mark.number = b)) → refusedAs .noSuch) ∧
      ∀ before h after, s.marks.holds = before ++ h :: after →
        (∀ x ∈ before, ¬ (x.mark.originator.val = a.toNat ∧ x.mark.number = b)) →
        h.mark.originator.val = a.toNat → h.mark.number = b →
        (h.inUse = true → refusedAs .busy) ∧
        (h.inUse = false →
          ∃ t r, exec c s = .next t ∧
            justWrote r (withAnswer (answerTo source tag 7 .ok (beBytes 2 h.records.length))
              ((heardQuery ⟨source, tag, 7, [a, b], some 2, false⟩ s).setMarks { s.marks with holds := before ++ after })) t ∧
            tells r .hold ⟨s.clock.lineTime, s.clock.cls⟩ h.mark.originator.val 2 (some h.mark.number.toNat))

/-- A hold's walk takes a visited record of its window into the store and goes on to the next; at the newest it is FILLING, or CLOSED
where its close was due; with the store full it closes TRUNCATED and HOLD TRUNCATED is written. A close deadline closes a FILLING hold and
marks a COPYING one close due, which keeps it (that the flag stays set as the hold becomes CLOSED is log entry 39). -/
def Obligations.HoldsWalkAndClose : Prop :=
  (∀ (s : State) (before after : List Hold) (h : Hold) (n : JournalNo) (r : Record),
      s.marks.holds = before ++ h :: after → (∀ x ∈ before, x.identity ≠ h.identity) →
      h.state = .copying → h.walk = some n → recordAt s.journal n = some r →
      let takes := h.start ≤ r.date.time ∧ r.date.time ≤ h.stop
      let put := fun x : Hold => before ++ x :: after
      (¬ takes ∨ storeCount s.marks.holds < 1024 →
        ∃ t x, exec (.holdWalkVisit h.mark.originator h.mark.number) s = .next t ∧ t.marks = { s.marks with holds := put x } ∧
          (n ≠ newestNumber s.journal →
            x = { h with records := (if takes then h.records ++ [r] else h.records), walk := some (n + 1) }) ∧
          (n = newestNumber s.journal → h.closeDue = false →
            x = { h with records := (if takes then h.records ++ [r] else h.records), walk := none, state := .filling }) ∧
          (n = newestNumber s.journal → h.closeDue = true →
            x = { h with
              records := (if takes then h.records ++ [r] else h.records), walk := none, state := .closed, deadline := none }) ∧
          onlyChanges [.marks, .alarms] s t) ∧
      (takes → 1024 ≤ storeCount s.marks.holds →
        ∃ t q, exec (.holdWalkVisit h.mark.originator h.mark.number) s = .next t ∧
          justWrote q (s.setMarks { s.marks with
            holds := put { h with state := .closed, truncated := true, walk := none, deadline := none } }) t ∧
          t.marks.holds[before.length]? = some { h with state := .closed, truncated := true, walk := none, deadline := none } ∧
          tells q .hold ⟨s.clock.lineTime, s.clock.cls⟩ h.mark.originator.val 0 (some h.mark.number.toNat))) ∧
    ∀ (s : State) (before after : List Hold) (h : Hold) (x : LineTime),
      s.marks.holds = before ++ h :: after → (s.marks.holds.map Hold.identity).Nodup →
      h.deadline = some x → x ≤ s.clock.lineTime → h.closeDue = false →
        ∃ t, exec (.holdCloseDeadline h.mark.originator h.mark.number) s = .next t ∧
          (h.state = .filling → t.marks = { s.marks with
            holds := before ++ { h with state := .closed, walk := none, deadline := none } :: after }) ∧
          (h.state = .copying → t.marks = { s.marks with
            holds := before ++ { h with closeDue := true } :: after }) ∧
          onlyChanges [.marks, .alarms] s t

/-! ### The impulse lines -/

/-- At a target change a line with a position, the class being set, takes the time of day modulo twelve hours in whole steps as its target
and sets its deadline at the next multiple of its step; a line in UNSET, PULSING or FAULT goes on, any other is evaluated. The end of a
spacing wait evaluates the line. The end of a test wait makes a test pulse where the dial must move, or waits 60 s more. -/
def Obligations.TargetChangesAndWaits : Prop :=
  ∀ (s : State) (l : DialNo) (p : Nat), s.dials[l].sound → s.dials[l].position = some p →
    let d := s.dials[l]
    (∀ y, d.deadline = some y → y ≤ s.clock.lineTime → s.clock.cls ≠ .unset →
      let x := s.clock.lineTime % 43200000000 / (d.defn.step * 1000000)
      ∃ t e due, exec (.targetChange l) s = .next t ∧ t.dials = setAt s.dials l e ∧ onlyChanges [.dials, .alarms] s t ∧
        s.clock.lineTime < due ∧ due ≤ s.clock.lineTime + d.defn.step * 1000000 ∧ due % (d.defn.step * 1000000) = 0 ∧
        (d.state = .pulsing ∨ d.state = .fault → e = { d with target := some x, deadline := some due }) ∧
        (d.state ≠ .pulsing → d.state ≠ .fault →
          evaluatedAt s.clock.osc p x { d with target := some x, deadline := some due } e)) ∧
    (∀ x w, d.target = some x → d.state = .catchingUp → d.wait = some w → w ≤ s.clock.osc →
      ∃ t e, exec (.spacingWaitEnd l) s = .next t ∧ t.dials = setAt s.dials l e ∧ onlyChanges [.dials, .alarms] s t ∧
        evaluatedAt s.clock.osc p x d e) ∧
    (∀ x w, d.target = some x → d.state = .fault → d.wait = some w → w ≤ s.clock.osc →
      let n := (faceAndZone d.defn).1
      let b := (x + n - p) % n
      let needed := b ≠ 0 ∧ (faceAndZone d.defn).2 < n - b
      ∃ t e, exec (.testWaitEnd l) s = .next t ∧ t.dials = setAt s.dials l e ∧ onlyChanges [.dials, .alarms] s t ∧
        (needed → e = { d with
          state := .pulsing, test := true, sensed := false, last := some (s.clock.osc, false), wait := none }) ∧
        (¬ needed → e = { d with wait := some (s.clock.osc + 600000000) }))

/-- A pulse in which current was sensed moves the dial one step, turns the polarity and clears the failed-pulse count, and the line is
evaluated; one in which none was counts as failed, and the third in a row puts the line in FAULT for 60 s from the pulse's start, DIAL
FAULT written. A test pulse with current writes DIAL RECOVERED and evaluates the line; one without waits 60 s more in FAULT. -/
def Obligations.PulsesMoveTheDialOrFail : Prop :=
  ∀ (s : State) (l : DialNo) (start : OscTime) (p x : Nat), s.dials[l].sound → pulseRan l start s →
    s.dials[l].position = some p → s.dials[l].target = some x →
      let d := s.dials[l]
      let moved := (p + 1) % (faceAndZone d.defn).1
      let failed : Dial := { d with failed := min 255 (d.failed + 1), last := some (start, false) }
      (d.test = false → d.sensed = true →
        ∃ t e, exec (.pulseEnd l) s = .next t ∧ t.dials = setAt s.dials l e ∧
          evaluatedAt s.clock.osc moved x (d.stepped start) e ∧ onlyChanges [.dials, .alarms] s t) ∧
      (d.test = false → d.sensed = false → d.failed < 2 →
        ∃ t e, exec (.pulseEnd l) s = .next t ∧ t.dials = setAt s.dials l e ∧
          evaluatedAt s.clock.osc p x failed e ∧ onlyChanges [.dials, .alarms] s t) ∧
      (d.test = false → d.sensed = false → 2 ≤ d.failed →
        ∃ t r, exec (.pulseEnd l) s = .next t ∧ t.query.latched.getLsbD 7 = true ∧
          justWrote r (withDial l { failed with state := .fault, wait := some (start + 600000000) } s) t ∧
          tells r .dial ⟨s.clock.lineTime, s.clock.cls⟩ l.val 1 (some p)) ∧
      (d.test = true → d.sensed = true →
        ∃ t e r, exec (.testPulseEnd l) s = .next t ∧ justWrote r (withDial l e s) t ∧
          evaluatedAt s.clock.osc moved x (d.stepped start) e ∧
          tells r .dial ⟨s.clock.lineTime, s.clock.cls⟩ l.val 2 (some moved)) ∧
      (d.test = true → d.sensed = false →
        ∃ t, exec (.testPulseEnd l) s = .next t ∧ onlyChanges [.dials, .alarms] s t ∧
          t.dials = setAt s.dials l { failed with state := .fault, test := false, wait := some (start + 600000000) })

/-- SET DIAL puts an enabled line that is not pulsing at a position of its face and a next polarity, writes DIAL SET, and evaluates it,
with no target and NO_TIME while the class is UNSET, else with the target and, as its deadline, the next multiple of its step; READ DIAL answers
with a line's fields in their order and widths. SET DIAL is refused BAD_VALUE, NO_SUCH, BUSY
or BAD_VALUE by the first that holds, READ DIAL BAD_VALUE. (The widths and places of READ DIAL's fields that no rule gives, the wait in
whole ms rounded down among them, are log entry 18.) -/
def Obligations.SetDialAndReadDial : Prop :=
  ∀ (s : State) (source : Station) (tag a hi lo polarity : Byte), takesQuery source s →
    let set : Instr := .setDial source tag [a, hi, lo, polarity]
    let read : Instr := .readDial source tag [a]
    let refusedAs := fun result => refused set ⟨source, tag, 8, [a, hi, lo, polarity], some 4, true⟩ result s
    let p := hi.toNat * 256 + lo.toNat
    (4 ≤ a.toNat → refused read ⟨source, tag, 9, [a], some 1, false⟩ .badValue s) ∧
      (s.config.state ≠ .unconfigured → 4 ≤ a.toNat → refusedAs .badValue) ∧
      ∀ l : DialNo, l.val = a.toNat →
        let d := s.dials[l]
        (∃ t, exec read s = .next t ∧
          onlyAnswered ⟨source, tag, 9, [a], some 1, false⟩ (answerTo source tag 9 .ok (spelt (dialLayout d s.clock.osc))) s t ∧ t.journal = s.journal) ∧
        (s.config.state ≠ .unconfigured →
          (d.defn.enabled = false → refusedAs .noSuch) ∧
          (d.defn.enabled = true → d.state = .pulsing → refusedAs .busy) ∧
          (d.defn.enabled = true → d.state ≠ .pulsing →
            ((faceAndZone d.defn).1 ≤ p ∨ 1 < polarity.toNat → refusedAs .badValue) ∧
            (p < (faceAndZone d.defn).1 → polarity.toNat ≤ 1 → 0 < d.defn.step →
              ∃ t r e, exec set s = .next t ∧
                justWrote r (withAnswer (answerTo source tag 8 .ok [])
                  (heardQuery ⟨source, tag, 8, [a, hi, lo, polarity], some 4, true⟩ (withDial l e s))) t ∧
                tells r .dial ⟨s.clock.lineTime, s.clock.cls⟩ l.val 0 (some p) ∧
                (s.clock.cls = .unset →
                  e = { d with
                    position := some p, positionStep := d.defn.step, negative := decide (polarity = 1), failed := 0
                    test := false, target := none, deadline := none, state := .noTime, wait := none }) ∧
                (s.clock.cls ≠ .unset →
                  let x := s.clock.lineTime % 43200000000 / (d.defn.step * 1000000)
                  ∃ due, s.clock.lineTime < due ∧ due ≤ s.clock.lineTime + d.defn.step * 1000000 ∧
                    due % (d.defn.step * 1000000) = 0 ∧
                    evaluatedAt s.clock.osc p x
                      { d with
                        position := some p, positionStep := d.defn.step, negative := decide (polarity = 1), failed := 0
                        test := false, target := some x, deadline := some due, wait := none } e))))

/-- Every impulse line keeps its shape, whatever step is taken: its position within its face, its waits and its pulses as its state calls
for, FAULT from the third failed pulse. -/
def Obligations.DialsStaySound : Prop :=
  ∀ s t : State, dialsSound s → quietWhileReading s → step s = .next t → dialsSound t

/-! ### Queries, status and alarms -/

/-- A query heard while a restart is pending is dropped; by a full answer queue it is dropped and counted; of a kind not known it is
answered UNKNOWN_QUERY with its kind; with arguments of another length than its kind's, BAD_VALUE; one that needs a record, NOT_READY
while the station runs UNCONFIGURED. Nothing else happens. -/
def Obligations.QueriesAreAnsweredOrDropped : Prop :=
  ∀ (s : State) (c : Instr) (q : QueryForm), queryForm c = some q → receiving q.source s →
    (s.query.restartPending = true →
      ∃ t, exec c s = .next t ∧ t.line = (heardQuery q s).line ∧ t.news = (heardQuery q s).news ∧
        onlyChanges [.line, .news, .alarms] s t) ∧
      (s.query.restartPending = false → 4 ≤ s.query.answers.length →
        ∃ t, exec c s = .next t ∧
          t.line = { (heardQuery q s).line with
            counters := { s.line.counters with queriesDropped := min 65535 (s.line.counters.queriesDropped + 1) } } ∧
          t.news = (heardQuery q s).news ∧ onlyChanges [.line, .news, .alarms] s t) ∧
      (s.query.restartPending = false → s.query.answers.length < 4 →
        (q.length = none → refused c q .unknownQuery s) ∧
        (∀ n, q.length = some n → q.args.length ≠ n → refused c q .badValue s) ∧
        (∀ n, q.length = some n → q.args.length = n → q.needsRecord = true → s.config.state = .unconfigured →
          refused c q .notReady s))

/-- CLEAR ALARMS clears the latched bits of the sources named, except those still live, and answers with the latched mask that is left;
READ STATUS answers with a snapshot of the page in parts of up to 156 bytes behind a header, BAD_VALUE above page 5; RESTART leaves a
restart pending on its answer. A page's bytes are its fields as the rules of its blocks list them, most significant byte first (the fields
that may be none, and the widths and places that no rule gives, are log entry 18). -/
def Obligations.ClearAlarmsReadStatusAndRestart : Prop :=
  ∀ (s : State) (source : Station) (tag a b : Byte), takesQuery source s →
    (∃ t latched, exec (.clearAlarms source tag [a, b]) s = .next t ∧
      latched = (s.query.latched &&& ~~~(BitVec.ofNat 11 (a.toNat * 256 + b.toNat))) ||| liveMask s ∧
      t.query.latched = latched ∧
      (∃ u, classTwoFilled (withAnswer (answerTo source tag 13 .ok (beBytes 2 latched.toNat))
        ((heardQuery ⟨source, tag, 13, [a, b], some 2, false⟩ s).setQuery { s.query with latched := latched })) u ∧
        t = relatch u) ∧
      onlyChanges [.line, .news, .query, .alarms] s t) ∧
    (∀ bytes, pageFields a.toNat (heardQuery ⟨source, tag, 12, [a], some 1, false⟩ s) = some bytes → bytes.length ≤ 2496 →
      ∃ t parts, exec (.readStatus source tag [a]) s = .next t ∧
        onlyAnswered ⟨source, tag, 12, [a], some 1, false⟩ { answerTo source tag 12 .ok [] with parts := parts } s t ∧ t.journal = s.journal ∧
        parts.flatMap (List.drop 1) = bytes ∧ 0 < parts.length ∧ parts.length ≤ 16 ∧
        ∀ (i : Nat) (part : List Byte), parts[i]? = some part → part.length ≤ 157 ∧
          part.head? = some (byteOf (a.toNat + (if i + 1 = parts.length then 8 else 0) + 16 * i))) ∧
    (6 ≤ a.toNat → refused (.readStatus source tag [a]) ⟨source, tag, 12, [a], some 1, false⟩ .badValue s) ∧
    (a.toNat < 6 → pageFields a.toNat s = some (spelt (pageLayout a.toNat s))) ∧
    (∃ t, exec (.restart source tag []) s = .next t ∧
      (∃ u, classTwoFilled (withAnswer { answerTo source tag 14 .ok [] with forRestart := true }
        ((heardQuery ⟨source, tag, 14, [], some 0, false⟩ s).setQuery { s.query with restartPending := true })) u ∧
        t = relatch u) ∧
      onlyChanges [.line, .news, .query, .alarms] s t)

/-- The live mask has bit k exactly while the live condition of the source of bit k holds: CLOCK in Unset or Holdover or with a dispute counted, REFERENCE
while the port is SEARCHING, PEER_OUTLIER while an outlier flag is set, LINE in line trouble, INPUT while a channel is CHATTERING, POINT while a defined
point is LOST, BOTH, in OVERTIME or start-failed, DIAL while a failed-pulse count is 3 or more, HOLD while the hold table is full or the store holds
922 records, CONFIG while UNCONFIGURED or while a point has no room in the watch table; CHECK and NEWS_GAP have none. Every alarm source whose live
condition holds is latched, whatever step is taken; and no step clears a latched bit but CLEAR ALARMS, a
restart and power being applied. -/
def Obligations.LiveSourcesAreLatched : Prop :=
  (∀ (s : State) (k : Nat), (liveMask s).getLsbD k = true ↔ sourceLive s k) ∧
  (∀ s t : State, latchedWhileLive s → step s = .next t → latchedWhileLive t) ∧
    ∀ s t : State, (∀ a ∈ s.query.answers, a.forRestart = false) →
      (∀ c, s.pending.head? = some c → c ≠ .powerOn ∧ c ≠ .restartPin ∧ ∀ source tag args, c ≠ .clearAlarms source tag args) →
      step s = .next t → keepsLatches s t

/-! ### Starts and the configuration -/

/-- POWER_ON leaves the power-on state with one record, RESTART 0 dated at line time 0 in class UNSET, number 0, which is announced; the
levels at the pins stay. RESTART_PIN, at a restart edge, restarts the part warm: everything is kept or cleared as the blocks' restart
rules say, and the records are written in their order. (The first sample's moment, the pins not yet sampled, the values that stand before
the first record is read, the lines' targets gone at a warm restart, and no unusable reason with the old check field until the record is read again
are log entries 5, 6, 26, 23 and 40.) -/
def Obligations.StartsLeaveTheStatesOfTheRules : Prop :=
  (∀ s : State, ∃ t r, exec .powerOn s = .next t ∧ r.number = 0 ∧ tells r .restart ⟨0, .unset⟩ 0 0 none ∧
      t = { State.reset with
        journal := { records := [r], next := 1 }
        news := { State.reset.news with queue := [(r, 0)] }
        pins := { s.pins with sampled := false, restartEdge := false }
        choices := s.choices, pending := s.pending }) ∧
    ∀ s : State, s.pins.restartEdge = true → holdsFit s →
      ∃ t, exec .restartPin s = .next t ∧ warmRestarted .pin s t ∧ t.pins = { s.pins with restartEdge := false }

/-- The configuration read: it begins with the straps once a sample reads RSTN inactive; a byte not acknowledged ends an attempt, the next
begins 10 ms later, and the third leaves the memory absent; a read whose header is wrong, or whose 838 bytes do not sum to their check,
leaves the station UNCONFIGURED with the reason, at 250 kbit/s, T 8 s, D 0, threshold 2 ms, watermark 4, settle 2 s, L 20, trim 0, no reference,
all alarms enabled, and nothing enabled or defined; and a usable one gives every block its settings. The points are defined in rising number, one
left out only where its new remote inputs do not fit the watch table, which is built from those that are defined; each keeps its last outcome, its
stroke and operate time, its trends and, but for the preload at power-on, its service counter and service-due. Every impulse line takes
its settings and begins. (The moment at which the first chatter second begins is log entry 8.) -/
def Obligations.TheConfigurationIsRead : Prop :=
  (∀ (s : State) (straps : BitVec 5), s.config.phase = .awaited → s.pins.sampled = true →
      s.pins.restart = false →
      ∃ t, exec (.configReadBegin straps) s = .next t ∧ t.pins = { s.pins with straps := straps } ∧
        t.config = { s.config with state := .reading, phase := .attempt, failures := 0, station := straps.toFin } ∧
        onlyChanges [.config, .pins, .alarms] s t) ∧
    (∀ s : State, s.config.phase = .attempt →
      ∃ t, exec .byteNotAcknowledged s = .next t ∧
        t.config = { s.config with
          failures := s.config.failures + 1
          phase := if s.config.failures < 2 then .retryAt (s.clock.osc + 100000) else .failed } ∧
        onlyChanges [.config, .alarms] s t) ∧
    (∀ (s : State) (x : OscTime), s.config.phase = .retryAt x → x ≤ s.clock.osc →
      ∃ t, exec .configAttemptRetry s = .next t ∧ t.config = { s.config with phase := .attempt } ∧
        onlyChanges [.config, .alarms] s t) ∧
    unconfiguredValues unconfiguredRecord ∧
    (∀ s : State, s.config.phase = .failed → quietWhileReading s →
      ∃ t, exec (.configReadEnd []) s = .next t ∧
        configured unconfiguredRecord
          { s.config with state := .unconfigured, phase := .over, reason := .absent, check := 0 } s t) ∧
    (∀ (s : State) (bytes : List Byte), s.config.phase = .attempt → quietWhileReading s → 5 ≤ bytes.length →
      let check := BitVec.ofNat 16 ((byteAt bytes 3).toNat * 256 + (byteAt bytes 4).toNat)
      let headerRight := (byteAt bytes 0).toNat = 1 ∧ (byteAt bytes 1).toNat * 256 + (byteAt bytes 2).toNat = 838
      let sum := (((bytes.take 3 ++ bytes.drop 5).map BitVec.toNat).sum) % 65536
      (¬ headerRight →
        ∃ t, exec (.configReadEnd bytes) s = .next t ∧
          configured unconfiguredRecord
            { s.config with state := .unconfigured, phase := .over, reason := .versionOrLength, check := check } s t) ∧
      (headerRight → bytes.length = 838 → sum ≠ check.toNat →
        ∃ t, exec (.configReadEnd bytes) s = .next t ∧
          configured unconfiguredRecord
            { s.config with state := .unconfigured, phase := .over, reason := .check, check := check } s t) ∧
      (headerRight → bytes.length = 838 → sum = check.toNat →
        ∃ t, exec (.configReadEnd bytes) s = .next t ∧
          configured (parseConfig bytes)
            { s.config with state := .configured, phase := .over, reason := .none, check := check } s t))

/-- A record's fields are read from the bytes that the record's layout gives them, most significant byte first, and whatever bytes it
holds, every setting taken from it lies in its range. -/
def Obligations.RecordSettingsAreClamped : Prop :=
  ∀ bytes : List Byte,
    let r := parseConfig bytes
    let u1 := fun k => (byteAt bytes k).toNat
    let u2 := fun k => u1 k * 256 + u1 (k + 1)
    (bytes.length = 838 → recordLaidOut u1 u2 r) ∧
      (r.settings.bitRate = 250 ∨ r.settings.bitRate = 500 ∨ r.settings.bitRate = 1000) ∧
      (r.settings.interval = 4 ∨ r.settings.interval = 8 ∨ r.settings.interval = 16) ∧ r.settings.delay ≤ 255 ∧
      (1 ≤ r.settings.thresholdMs ∧ r.settings.thresholdMs ≤ 100) ∧
      (1 ≤ r.settings.watermark ∧ r.settings.watermark ≤ 8) ∧ (1 ≤ r.settings.settle ∧ r.settings.settle ≤ 10) ∧
      (2 ≤ r.settings.chatterLimit ∧ r.settings.chatterLimit ≤ 50) ∧
      (-20000 ≤ r.initialTrim ∧ r.initialTrim ≤ 20000) ∧
      (∀ i : InputNo, 1 ≤ r.inputs[i].filterMs ∧ r.inputs[i].filterMs ≤ 250) ∧
      (∀ (p : PointNo) (d : PointDef), r.points[p] = some d →
        100 ≤ d.startMs ∧ d.startMs ≤ 5000 ∧ 1000 ≤ d.strokeMs ∧ d.strokeMs ≤ 20000 ∧ d.interval ≤ 16777215) ∧
      ∀ l : DialNo, (r.dials[l].step = 30 ∨ r.dials[l].step = 60) ∧ 100 ≤ r.dials[l].widthMs ∧
        r.dials[l].widthMs ≤ 2000 ∧ r.dials[l].widthMs + 500 ≤ r.dials[l].spacingMs ∧ 1000 ≤ r.dials[l].spacingMs ∧
        r.dials[l].spacingMs ≤ 10000

/-- Until a configuration read has ended nothing runs that takes its settings from it, whatever step is taken. (That an impulse line has
no target until then, after a warm restart too, is the model's reading, log entry 23.) -/
def Obligations.NothingRunsBeforeTheRecordIsRead : Prop :=
  ∀ s t : State, quietWhileReading s → step s = .next t → quietWhileReading t
end

