-- ==== Sys2Proof/Laws/State.lean ====
section
/-! SUPPORT. What each update of the state leaves in each of its fields: one lemma per field per update, so that no later proof
unfolds a record update. -/

namespace Sys2Proof.Machine

variable (s : State)

/-! ### setClock -/

@[simp] theorem State.setClock_clock (x : Clock) : (s.setClock x).clock = x := rfl
@[simp] theorem State.setClock_port (x : Clock) : (s.setClock x).port = s.port := rfl
@[simp] theorem State.setClock_agree (x : Clock) : (s.setClock x).agree = s.agree := rfl
@[simp] theorem State.setClock_line (x : Clock) : (s.setClock x).line = s.line := rfl
@[simp] theorem State.setClock_input (x : Clock) : (s.setClock x).input = s.input := rfl
@[simp] theorem State.setClock_journal (x : Clock) : (s.setClock x).journal = s.journal := rfl
@[simp] theorem State.setClock_reader (x : Clock) : (s.setClock x).reader = s.reader := rfl
@[simp] theorem State.setClock_news (x : Clock) : (s.setClock x).news = s.news := rfl
@[simp] theorem State.setClock_watch (x : Clock) : (s.setClock x).watch = s.watch := rfl
@[simp] theorem State.setClock_points (x : Clock) : (s.setClock x).points = s.points := rfl
@[simp] theorem State.setClock_checks (x : Clock) : (s.setClock x).checks = s.checks := rfl
@[simp] theorem State.setClock_marks (x : Clock) : (s.setClock x).marks = s.marks := rfl
@[simp] theorem State.setClock_dials (x : Clock) : (s.setClock x).dials = s.dials := rfl
@[simp] theorem State.setClock_query (x : Clock) : (s.setClock x).query = s.query := rfl
@[simp] theorem State.setClock_config (x : Clock) : (s.setClock x).config = s.config := rfl
@[simp] theorem State.setClock_settings (x : Clock) : (s.setClock x).settings = s.settings := rfl
@[simp] theorem State.setClock_pins (x : Clock) : (s.setClock x).pins = s.pins := rfl
@[simp] theorem State.setClock_choices (x : Clock) : (s.setClock x).choices = s.choices := rfl
@[simp] theorem State.setClock_pending (x : Clock) : (s.setClock x).pending = s.pending := rfl

/-! ### setPort -/

@[simp] theorem State.setPort_clock (x : RefPort) : (s.setPort x).clock = s.clock := rfl
@[simp] theorem State.setPort_port (x : RefPort) : (s.setPort x).port = x := rfl
@[simp] theorem State.setPort_agree (x : RefPort) : (s.setPort x).agree = s.agree := rfl
@[simp] theorem State.setPort_line (x : RefPort) : (s.setPort x).line = s.line := rfl
@[simp] theorem State.setPort_input (x : RefPort) : (s.setPort x).input = s.input := rfl
@[simp] theorem State.setPort_journal (x : RefPort) : (s.setPort x).journal = s.journal := rfl
@[simp] theorem State.setPort_reader (x : RefPort) : (s.setPort x).reader = s.reader := rfl
@[simp] theorem State.setPort_news (x : RefPort) : (s.setPort x).news = s.news := rfl
@[simp] theorem State.setPort_watch (x : RefPort) : (s.setPort x).watch = s.watch := rfl
@[simp] theorem State.setPort_points (x : RefPort) : (s.setPort x).points = s.points := rfl
@[simp] theorem State.setPort_checks (x : RefPort) : (s.setPort x).checks = s.checks := rfl
@[simp] theorem State.setPort_marks (x : RefPort) : (s.setPort x).marks = s.marks := rfl
@[simp] theorem State.setPort_dials (x : RefPort) : (s.setPort x).dials = s.dials := rfl
@[simp] theorem State.setPort_query (x : RefPort) : (s.setPort x).query = s.query := rfl
@[simp] theorem State.setPort_config (x : RefPort) : (s.setPort x).config = s.config := rfl
@[simp] theorem State.setPort_settings (x : RefPort) : (s.setPort x).settings = s.settings := rfl
@[simp] theorem State.setPort_pins (x : RefPort) : (s.setPort x).pins = s.pins := rfl
@[simp] theorem State.setPort_choices (x : RefPort) : (s.setPort x).choices = s.choices := rfl
@[simp] theorem State.setPort_pending (x : RefPort) : (s.setPort x).pending = s.pending := rfl

/-! ### setAgree -/

@[simp] theorem State.setAgree_clock (x : Agreement) : (s.setAgree x).clock = s.clock := rfl
@[simp] theorem State.setAgree_port (x : Agreement) : (s.setAgree x).port = s.port := rfl
@[simp] theorem State.setAgree_agree (x : Agreement) : (s.setAgree x).agree = x := rfl
@[simp] theorem State.setAgree_line (x : Agreement) : (s.setAgree x).line = s.line := rfl
@[simp] theorem State.setAgree_input (x : Agreement) : (s.setAgree x).input = s.input := rfl
@[simp] theorem State.setAgree_journal (x : Agreement) : (s.setAgree x).journal = s.journal := rfl
@[simp] theorem State.setAgree_reader (x : Agreement) : (s.setAgree x).reader = s.reader := rfl
@[simp] theorem State.setAgree_news (x : Agreement) : (s.setAgree x).news = s.news := rfl
@[simp] theorem State.setAgree_watch (x : Agreement) : (s.setAgree x).watch = s.watch := rfl
@[simp] theorem State.setAgree_points (x : Agreement) : (s.setAgree x).points = s.points := rfl
@[simp] theorem State.setAgree_checks (x : Agreement) : (s.setAgree x).checks = s.checks := rfl
@[simp] theorem State.setAgree_marks (x : Agreement) : (s.setAgree x).marks = s.marks := rfl
@[simp] theorem State.setAgree_dials (x : Agreement) : (s.setAgree x).dials = s.dials := rfl
@[simp] theorem State.setAgree_query (x : Agreement) : (s.setAgree x).query = s.query := rfl
@[simp] theorem State.setAgree_config (x : Agreement) : (s.setAgree x).config = s.config := rfl
@[simp] theorem State.setAgree_settings (x : Agreement) : (s.setAgree x).settings = s.settings := rfl
@[simp] theorem State.setAgree_pins (x : Agreement) : (s.setAgree x).pins = s.pins := rfl
@[simp] theorem State.setAgree_choices (x : Agreement) : (s.setAgree x).choices = s.choices := rfl
@[simp] theorem State.setAgree_pending (x : Agreement) : (s.setAgree x).pending = s.pending := rfl

/-! ### setLine -/

@[simp] theorem State.setLine_clock (x : LineControl) : (s.setLine x).clock = s.clock := rfl
@[simp] theorem State.setLine_port (x : LineControl) : (s.setLine x).port = s.port := rfl
@[simp] theorem State.setLine_agree (x : LineControl) : (s.setLine x).agree = s.agree := rfl
@[simp] theorem State.setLine_line (x : LineControl) : (s.setLine x).line = x := rfl
@[simp] theorem State.setLine_input (x : LineControl) : (s.setLine x).input = s.input := rfl
@[simp] theorem State.setLine_journal (x : LineControl) : (s.setLine x).journal = s.journal := rfl
@[simp] theorem State.setLine_reader (x : LineControl) : (s.setLine x).reader = s.reader := rfl
@[simp] theorem State.setLine_news (x : LineControl) : (s.setLine x).news = s.news := rfl
@[simp] theorem State.setLine_watch (x : LineControl) : (s.setLine x).watch = s.watch := rfl
@[simp] theorem State.setLine_points (x : LineControl) : (s.setLine x).points = s.points := rfl
@[simp] theorem State.setLine_checks (x : LineControl) : (s.setLine x).checks = s.checks := rfl
@[simp] theorem State.setLine_marks (x : LineControl) : (s.setLine x).marks = s.marks := rfl
@[simp] theorem State.setLine_dials (x : LineControl) : (s.setLine x).dials = s.dials := rfl
@[simp] theorem State.setLine_query (x : LineControl) : (s.setLine x).query = s.query := rfl
@[simp] theorem State.setLine_config (x : LineControl) : (s.setLine x).config = s.config := rfl
@[simp] theorem State.setLine_settings (x : LineControl) : (s.setLine x).settings = s.settings := rfl
@[simp] theorem State.setLine_pins (x : LineControl) : (s.setLine x).pins = s.pins := rfl
@[simp] theorem State.setLine_choices (x : LineControl) : (s.setLine x).choices = s.choices := rfl
@[simp] theorem State.setLine_pending (x : LineControl) : (s.setLine x).pending = s.pending := rfl

/-! ### setInput -/

@[simp] theorem State.setInput_clock (x : InputUnit) : (s.setInput x).clock = s.clock := rfl
@[simp] theorem State.setInput_port (x : InputUnit) : (s.setInput x).port = s.port := rfl
@[simp] theorem State.setInput_agree (x : InputUnit) : (s.setInput x).agree = s.agree := rfl
@[simp] theorem State.setInput_line (x : InputUnit) : (s.setInput x).line = s.line := rfl
@[simp] theorem State.setInput_input (x : InputUnit) : (s.setInput x).input = x := rfl
@[simp] theorem State.setInput_journal (x : InputUnit) : (s.setInput x).journal = s.journal := rfl
@[simp] theorem State.setInput_reader (x : InputUnit) : (s.setInput x).reader = s.reader := rfl
@[simp] theorem State.setInput_news (x : InputUnit) : (s.setInput x).news = s.news := rfl
@[simp] theorem State.setInput_watch (x : InputUnit) : (s.setInput x).watch = s.watch := rfl
@[simp] theorem State.setInput_points (x : InputUnit) : (s.setInput x).points = s.points := rfl
@[simp] theorem State.setInput_checks (x : InputUnit) : (s.setInput x).checks = s.checks := rfl
@[simp] theorem State.setInput_marks (x : InputUnit) : (s.setInput x).marks = s.marks := rfl
@[simp] theorem State.setInput_dials (x : InputUnit) : (s.setInput x).dials = s.dials := rfl
@[simp] theorem State.setInput_query (x : InputUnit) : (s.setInput x).query = s.query := rfl
@[simp] theorem State.setInput_config (x : InputUnit) : (s.setInput x).config = s.config := rfl
@[simp] theorem State.setInput_settings (x : InputUnit) : (s.setInput x).settings = s.settings := rfl
@[simp] theorem State.setInput_pins (x : InputUnit) : (s.setInput x).pins = s.pins := rfl
@[simp] theorem State.setInput_choices (x : InputUnit) : (s.setInput x).choices = s.choices := rfl
@[simp] theorem State.setInput_pending (x : InputUnit) : (s.setInput x).pending = s.pending := rfl

/-! ### setJournal -/

@[simp] theorem State.setJournal_clock (x : Journal) : (s.setJournal x).clock = s.clock := rfl
@[simp] theorem State.setJournal_port (x : Journal) : (s.setJournal x).port = s.port := rfl
@[simp] theorem State.setJournal_agree (x : Journal) : (s.setJournal x).agree = s.agree := rfl
@[simp] theorem State.setJournal_line (x : Journal) : (s.setJournal x).line = s.line := rfl
@[simp] theorem State.setJournal_input (x : Journal) : (s.setJournal x).input = s.input := rfl
@[simp] theorem State.setJournal_journal (x : Journal) : (s.setJournal x).journal = x := rfl
@[simp] theorem State.setJournal_reader (x : Journal) : (s.setJournal x).reader = s.reader := rfl
@[simp] theorem State.setJournal_news (x : Journal) : (s.setJournal x).news = s.news := rfl
@[simp] theorem State.setJournal_watch (x : Journal) : (s.setJournal x).watch = s.watch := rfl
@[simp] theorem State.setJournal_points (x : Journal) : (s.setJournal x).points = s.points := rfl
@[simp] theorem State.setJournal_checks (x : Journal) : (s.setJournal x).checks = s.checks := rfl
@[simp] theorem State.setJournal_marks (x : Journal) : (s.setJournal x).marks = s.marks := rfl
@[simp] theorem State.setJournal_dials (x : Journal) : (s.setJournal x).dials = s.dials := rfl
@[simp] theorem State.setJournal_query (x : Journal) : (s.setJournal x).query = s.query := rfl
@[simp] theorem State.setJournal_config (x : Journal) : (s.setJournal x).config = s.config := rfl
@[simp] theorem State.setJournal_settings (x : Journal) : (s.setJournal x).settings = s.settings := rfl
@[simp] theorem State.setJournal_pins (x : Journal) : (s.setJournal x).pins = s.pins := rfl
@[simp] theorem State.setJournal_choices (x : Journal) : (s.setJournal x).choices = s.choices := rfl
@[simp] theorem State.setJournal_pending (x : Journal) : (s.setJournal x).pending = s.pending := rfl

/-! ### setReader -/

@[simp] theorem State.setReader_clock (x : Option Read) : (s.setReader x).clock = s.clock := rfl
@[simp] theorem State.setReader_port (x : Option Read) : (s.setReader x).port = s.port := rfl
@[simp] theorem State.setReader_agree (x : Option Read) : (s.setReader x).agree = s.agree := rfl
@[simp] theorem State.setReader_line (x : Option Read) : (s.setReader x).line = s.line := rfl
@[simp] theorem State.setReader_input (x : Option Read) : (s.setReader x).input = s.input := rfl
@[simp] theorem State.setReader_journal (x : Option Read) : (s.setReader x).journal = s.journal := rfl
@[simp] theorem State.setReader_reader (x : Option Read) : (s.setReader x).reader = x := rfl
@[simp] theorem State.setReader_news (x : Option Read) : (s.setReader x).news = s.news := rfl
@[simp] theorem State.setReader_watch (x : Option Read) : (s.setReader x).watch = s.watch := rfl
@[simp] theorem State.setReader_points (x : Option Read) : (s.setReader x).points = s.points := rfl
@[simp] theorem State.setReader_checks (x : Option Read) : (s.setReader x).checks = s.checks := rfl
@[simp] theorem State.setReader_marks (x : Option Read) : (s.setReader x).marks = s.marks := rfl
@[simp] theorem State.setReader_dials (x : Option Read) : (s.setReader x).dials = s.dials := rfl
@[simp] theorem State.setReader_query (x : Option Read) : (s.setReader x).query = s.query := rfl
@[simp] theorem State.setReader_config (x : Option Read) : (s.setReader x).config = s.config := rfl
@[simp] theorem State.setReader_settings (x : Option Read) : (s.setReader x).settings = s.settings := rfl
@[simp] theorem State.setReader_pins (x : Option Read) : (s.setReader x).pins = s.pins := rfl
@[simp] theorem State.setReader_choices (x : Option Read) : (s.setReader x).choices = s.choices := rfl
@[simp] theorem State.setReader_pending (x : Option Read) : (s.setReader x).pending = s.pending := rfl

/-! ### setNews -/

@[simp] theorem State.setNews_clock (x : NewsUnit) : (s.setNews x).clock = s.clock := rfl
@[simp] theorem State.setNews_port (x : NewsUnit) : (s.setNews x).port = s.port := rfl
@[simp] theorem State.setNews_agree (x : NewsUnit) : (s.setNews x).agree = s.agree := rfl
@[simp] theorem State.setNews_line (x : NewsUnit) : (s.setNews x).line = s.line := rfl
@[simp] theorem State.setNews_input (x : NewsUnit) : (s.setNews x).input = s.input := rfl
@[simp] theorem State.setNews_journal (x : NewsUnit) : (s.setNews x).journal = s.journal := rfl
@[simp] theorem State.setNews_reader (x : NewsUnit) : (s.setNews x).reader = s.reader := rfl
@[simp] theorem State.setNews_news (x : NewsUnit) : (s.setNews x).news = x := rfl
@[simp] theorem State.setNews_watch (x : NewsUnit) : (s.setNews x).watch = s.watch := rfl
@[simp] theorem State.setNews_points (x : NewsUnit) : (s.setNews x).points = s.points := rfl
@[simp] theorem State.setNews_checks (x : NewsUnit) : (s.setNews x).checks = s.checks := rfl
@[simp] theorem State.setNews_marks (x : NewsUnit) : (s.setNews x).marks = s.marks := rfl
@[simp] theorem State.setNews_dials (x : NewsUnit) : (s.setNews x).dials = s.dials := rfl
@[simp] theorem State.setNews_query (x : NewsUnit) : (s.setNews x).query = s.query := rfl
@[simp] theorem State.setNews_config (x : NewsUnit) : (s.setNews x).config = s.config := rfl
@[simp] theorem State.setNews_settings (x : NewsUnit) : (s.setNews x).settings = s.settings := rfl
@[simp] theorem State.setNews_pins (x : NewsUnit) : (s.setNews x).pins = s.pins := rfl
@[simp] theorem State.setNews_choices (x : NewsUnit) : (s.setNews x).choices = s.choices := rfl
@[simp] theorem State.setNews_pending (x : NewsUnit) : (s.setNews x).pending = s.pending := rfl

/-! ### setWatch -/

@[simp] theorem State.setWatch_clock (x : List WatchEntry) : (s.setWatch x).clock = s.clock := rfl
@[simp] theorem State.setWatch_port (x : List WatchEntry) : (s.setWatch x).port = s.port := rfl
@[simp] theorem State.setWatch_agree (x : List WatchEntry) : (s.setWatch x).agree = s.agree := rfl
@[simp] theorem State.setWatch_line (x : List WatchEntry) : (s.setWatch x).line = s.line := rfl
@[simp] theorem State.setWatch_input (x : List WatchEntry) : (s.setWatch x).input = s.input := rfl
@[simp] theorem State.setWatch_journal (x : List WatchEntry) : (s.setWatch x).journal = s.journal := rfl
@[simp] theorem State.setWatch_reader (x : List WatchEntry) : (s.setWatch x).reader = s.reader := rfl
@[simp] theorem State.setWatch_news (x : List WatchEntry) : (s.setWatch x).news = s.news := rfl
@[simp] theorem State.setWatch_watch (x : List WatchEntry) : (s.setWatch x).watch = x := rfl
@[simp] theorem State.setWatch_points (x : List WatchEntry) : (s.setWatch x).points = s.points := rfl
@[simp] theorem State.setWatch_checks (x : List WatchEntry) : (s.setWatch x).checks = s.checks := rfl
@[simp] theorem State.setWatch_marks (x : List WatchEntry) : (s.setWatch x).marks = s.marks := rfl
@[simp] theorem State.setWatch_dials (x : List WatchEntry) : (s.setWatch x).dials = s.dials := rfl
@[simp] theorem State.setWatch_query (x : List WatchEntry) : (s.setWatch x).query = s.query := rfl
@[simp] theorem State.setWatch_config (x : List WatchEntry) : (s.setWatch x).config = s.config := rfl
@[simp] theorem State.setWatch_settings (x : List WatchEntry) : (s.setWatch x).settings = s.settings := rfl
@[simp] theorem State.setWatch_pins (x : List WatchEntry) : (s.setWatch x).pins = s.pins := rfl
@[simp] theorem State.setWatch_choices (x : List WatchEntry) : (s.setWatch x).choices = s.choices := rfl
@[simp] theorem State.setWatch_pending (x : List WatchEntry) : (s.setWatch x).pending = s.pending := rfl

/-! ### setPoints -/

@[simp] theorem State.setPoints_clock (x : Vector Point 32) : (s.setPoints x).clock = s.clock := rfl
@[simp] theorem State.setPoints_port (x : Vector Point 32) : (s.setPoints x).port = s.port := rfl
@[simp] theorem State.setPoints_agree (x : Vector Point 32) : (s.setPoints x).agree = s.agree := rfl
@[simp] theorem State.setPoints_line (x : Vector Point 32) : (s.setPoints x).line = s.line := rfl
@[simp] theorem State.setPoints_input (x : Vector Point 32) : (s.setPoints x).input = s.input := rfl
@[simp] theorem State.setPoints_journal (x : Vector Point 32) : (s.setPoints x).journal = s.journal := rfl
@[simp] theorem State.setPoints_reader (x : Vector Point 32) : (s.setPoints x).reader = s.reader := rfl
@[simp] theorem State.setPoints_news (x : Vector Point 32) : (s.setPoints x).news = s.news := rfl
@[simp] theorem State.setPoints_watch (x : Vector Point 32) : (s.setPoints x).watch = s.watch := rfl
@[simp] theorem State.setPoints_points (x : Vector Point 32) : (s.setPoints x).points = x := rfl
@[simp] theorem State.setPoints_checks (x : Vector Point 32) : (s.setPoints x).checks = s.checks := rfl
@[simp] theorem State.setPoints_marks (x : Vector Point 32) : (s.setPoints x).marks = s.marks := rfl
@[simp] theorem State.setPoints_dials (x : Vector Point 32) : (s.setPoints x).dials = s.dials := rfl
@[simp] theorem State.setPoints_query (x : Vector Point 32) : (s.setPoints x).query = s.query := rfl
@[simp] theorem State.setPoints_config (x : Vector Point 32) : (s.setPoints x).config = s.config := rfl
@[simp] theorem State.setPoints_settings (x : Vector Point 32) : (s.setPoints x).settings = s.settings := rfl
@[simp] theorem State.setPoints_pins (x : Vector Point 32) : (s.setPoints x).pins = s.pins := rfl
@[simp] theorem State.setPoints_choices (x : Vector Point 32) : (s.setPoints x).choices = s.choices := rfl
@[simp] theorem State.setPoints_pending (x : Vector Point 32) : (s.setPoints x).pending = s.pending := rfl

/-! ### setChecks -/

@[simp] theorem State.setChecks_clock (x : Vector (Option CheckEntry) 256) : (s.setChecks x).clock = s.clock := rfl
@[simp] theorem State.setChecks_port (x : Vector (Option CheckEntry) 256) : (s.setChecks x).port = s.port := rfl
@[simp] theorem State.setChecks_agree (x : Vector (Option CheckEntry) 256) : (s.setChecks x).agree = s.agree := rfl
@[simp] theorem State.setChecks_line (x : Vector (Option CheckEntry) 256) : (s.setChecks x).line = s.line := rfl
@[simp] theorem State.setChecks_input (x : Vector (Option CheckEntry) 256) : (s.setChecks x).input = s.input := rfl
@[simp] theorem State.setChecks_journal (x : Vector (Option CheckEntry) 256) : (s.setChecks x).journal = s.journal := rfl
@[simp] theorem State.setChecks_reader (x : Vector (Option CheckEntry) 256) : (s.setChecks x).reader = s.reader := rfl
@[simp] theorem State.setChecks_news (x : Vector (Option CheckEntry) 256) : (s.setChecks x).news = s.news := rfl
@[simp] theorem State.setChecks_watch (x : Vector (Option CheckEntry) 256) : (s.setChecks x).watch = s.watch := rfl
@[simp] theorem State.setChecks_points (x : Vector (Option CheckEntry) 256) : (s.setChecks x).points = s.points := rfl
@[simp] theorem State.setChecks_checks (x : Vector (Option CheckEntry) 256) : (s.setChecks x).checks = x := rfl
@[simp] theorem State.setChecks_marks (x : Vector (Option CheckEntry) 256) : (s.setChecks x).marks = s.marks := rfl
@[simp] theorem State.setChecks_dials (x : Vector (Option CheckEntry) 256) : (s.setChecks x).dials = s.dials := rfl
@[simp] theorem State.setChecks_query (x : Vector (Option CheckEntry) 256) : (s.setChecks x).query = s.query := rfl
@[simp] theorem State.setChecks_config (x : Vector (Option CheckEntry) 256) : (s.setChecks x).config = s.config := rfl
@[simp] theorem State.setChecks_settings (x : Vector (Option CheckEntry) 256) : (s.setChecks x).settings = s.settings := rfl
@[simp] theorem State.setChecks_pins (x : Vector (Option CheckEntry) 256) : (s.setChecks x).pins = s.pins := rfl
@[simp] theorem State.setChecks_choices (x : Vector (Option CheckEntry) 256) : (s.setChecks x).choices = s.choices := rfl
@[simp] theorem State.setChecks_pending (x : Vector (Option CheckEntry) 256) : (s.setChecks x).pending = s.pending := rfl

/-! ### setMarks -/

@[simp] theorem State.setMarks_clock (x : MarkUnit) : (s.setMarks x).clock = s.clock := rfl
@[simp] theorem State.setMarks_port (x : MarkUnit) : (s.setMarks x).port = s.port := rfl
@[simp] theorem State.setMarks_agree (x : MarkUnit) : (s.setMarks x).agree = s.agree := rfl
@[simp] theorem State.setMarks_line (x : MarkUnit) : (s.setMarks x).line = s.line := rfl
@[simp] theorem State.setMarks_input (x : MarkUnit) : (s.setMarks x).input = s.input := rfl
@[simp] theorem State.setMarks_journal (x : MarkUnit) : (s.setMarks x).journal = s.journal := rfl
@[simp] theorem State.setMarks_reader (x : MarkUnit) : (s.setMarks x).reader = s.reader := rfl
@[simp] theorem State.setMarks_news (x : MarkUnit) : (s.setMarks x).news = s.news := rfl
@[simp] theorem State.setMarks_watch (x : MarkUnit) : (s.setMarks x).watch = s.watch := rfl
@[simp] theorem State.setMarks_points (x : MarkUnit) : (s.setMarks x).points = s.points := rfl
@[simp] theorem State.setMarks_checks (x : MarkUnit) : (s.setMarks x).checks = s.checks := rfl
@[simp] theorem State.setMarks_marks (x : MarkUnit) : (s.setMarks x).marks = x := rfl
@[simp] theorem State.setMarks_dials (x : MarkUnit) : (s.setMarks x).dials = s.dials := rfl
@[simp] theorem State.setMarks_query (x : MarkUnit) : (s.setMarks x).query = s.query := rfl
@[simp] theorem State.setMarks_config (x : MarkUnit) : (s.setMarks x).config = s.config := rfl
@[simp] theorem State.setMarks_settings (x : MarkUnit) : (s.setMarks x).settings = s.settings := rfl
@[simp] theorem State.setMarks_pins (x : MarkUnit) : (s.setMarks x).pins = s.pins := rfl
@[simp] theorem State.setMarks_choices (x : MarkUnit) : (s.setMarks x).choices = s.choices := rfl
@[simp] theorem State.setMarks_pending (x : MarkUnit) : (s.setMarks x).pending = s.pending := rfl

/-! ### setDials -/

@[simp] theorem State.setDials_clock (x : Vector Dial 4) : (s.setDials x).clock = s.clock := rfl
@[simp] theorem State.setDials_port (x : Vector Dial 4) : (s.setDials x).port = s.port := rfl
@[simp] theorem State.setDials_agree (x : Vector Dial 4) : (s.setDials x).agree = s.agree := rfl
@[simp] theorem State.setDials_line (x : Vector Dial 4) : (s.setDials x).line = s.line := rfl
@[simp] theorem State.setDials_input (x : Vector Dial 4) : (s.setDials x).input = s.input := rfl
@[simp] theorem State.setDials_journal (x : Vector Dial 4) : (s.setDials x).journal = s.journal := rfl
@[simp] theorem State.setDials_reader (x : Vector Dial 4) : (s.setDials x).reader = s.reader := rfl
@[simp] theorem State.setDials_news (x : Vector Dial 4) : (s.setDials x).news = s.news := rfl
@[simp] theorem State.setDials_watch (x : Vector Dial 4) : (s.setDials x).watch = s.watch := rfl
@[simp] theorem State.setDials_points (x : Vector Dial 4) : (s.setDials x).points = s.points := rfl
@[simp] theorem State.setDials_checks (x : Vector Dial 4) : (s.setDials x).checks = s.checks := rfl
@[simp] theorem State.setDials_marks (x : Vector Dial 4) : (s.setDials x).marks = s.marks := rfl
@[simp] theorem State.setDials_dials (x : Vector Dial 4) : (s.setDials x).dials = x := rfl
@[simp] theorem State.setDials_query (x : Vector Dial 4) : (s.setDials x).query = s.query := rfl
@[simp] theorem State.setDials_config (x : Vector Dial 4) : (s.setDials x).config = s.config := rfl
@[simp] theorem State.setDials_settings (x : Vector Dial 4) : (s.setDials x).settings = s.settings := rfl
@[simp] theorem State.setDials_pins (x : Vector Dial 4) : (s.setDials x).pins = s.pins := rfl
@[simp] theorem State.setDials_choices (x : Vector Dial 4) : (s.setDials x).choices = s.choices := rfl
@[simp] theorem State.setDials_pending (x : Vector Dial 4) : (s.setDials x).pending = s.pending := rfl

/-! ### setQuery -/

@[simp] theorem State.setQuery_clock (x : QueryUnit) : (s.setQuery x).clock = s.clock := rfl
@[simp] theorem State.setQuery_port (x : QueryUnit) : (s.setQuery x).port = s.port := rfl
@[simp] theorem State.setQuery_agree (x : QueryUnit) : (s.setQuery x).agree = s.agree := rfl
@[simp] theorem State.setQuery_line (x : QueryUnit) : (s.setQuery x).line = s.line := rfl
@[simp] theorem State.setQuery_input (x : QueryUnit) : (s.setQuery x).input = s.input := rfl
@[simp] theorem State.setQuery_journal (x : QueryUnit) : (s.setQuery x).journal = s.journal := rfl
@[simp] theorem State.setQuery_reader (x : QueryUnit) : (s.setQuery x).reader = s.reader := rfl
@[simp] theorem State.setQuery_news (x : QueryUnit) : (s.setQuery x).news = s.news := rfl
@[simp] theorem State.setQuery_watch (x : QueryUnit) : (s.setQuery x).watch = s.watch := rfl
@[simp] theorem State.setQuery_points (x : QueryUnit) : (s.setQuery x).points = s.points := rfl
@[simp] theorem State.setQuery_checks (x : QueryUnit) : (s.setQuery x).checks = s.checks := rfl
@[simp] theorem State.setQuery_marks (x : QueryUnit) : (s.setQuery x).marks = s.marks := rfl
@[simp] theorem State.setQuery_dials (x : QueryUnit) : (s.setQuery x).dials = s.dials := rfl
@[simp] theorem State.setQuery_query (x : QueryUnit) : (s.setQuery x).query = x := rfl
@[simp] theorem State.setQuery_config (x : QueryUnit) : (s.setQuery x).config = s.config := rfl
@[simp] theorem State.setQuery_settings (x : QueryUnit) : (s.setQuery x).settings = s.settings := rfl
@[simp] theorem State.setQuery_pins (x : QueryUnit) : (s.setQuery x).pins = s.pins := rfl
@[simp] theorem State.setQuery_choices (x : QueryUnit) : (s.setQuery x).choices = s.choices := rfl
@[simp] theorem State.setQuery_pending (x : QueryUnit) : (s.setQuery x).pending = s.pending := rfl

/-! ### setConfig -/

@[simp] theorem State.setConfig_clock (x : ConfigUnit) : (s.setConfig x).clock = s.clock := rfl
@[simp] theorem State.setConfig_port (x : ConfigUnit) : (s.setConfig x).port = s.port := rfl
@[simp] theorem State.setConfig_agree (x : ConfigUnit) : (s.setConfig x).agree = s.agree := rfl
@[simp] theorem State.setConfig_line (x : ConfigUnit) : (s.setConfig x).line = s.line := rfl
@[simp] theorem State.setConfig_input (x : ConfigUnit) : (s.setConfig x).input = s.input := rfl
@[simp] theorem State.setConfig_journal (x : ConfigUnit) : (s.setConfig x).journal = s.journal := rfl
@[simp] theorem State.setConfig_reader (x : ConfigUnit) : (s.setConfig x).reader = s.reader := rfl
@[simp] theorem State.setConfig_news (x : ConfigUnit) : (s.setConfig x).news = s.news := rfl
@[simp] theorem State.setConfig_watch (x : ConfigUnit) : (s.setConfig x).watch = s.watch := rfl
@[simp] theorem State.setConfig_points (x : ConfigUnit) : (s.setConfig x).points = s.points := rfl
@[simp] theorem State.setConfig_checks (x : ConfigUnit) : (s.setConfig x).checks = s.checks := rfl
@[simp] theorem State.setConfig_marks (x : ConfigUnit) : (s.setConfig x).marks = s.marks := rfl
@[simp] theorem State.setConfig_dials (x : ConfigUnit) : (s.setConfig x).dials = s.dials := rfl
@[simp] theorem State.setConfig_query (x : ConfigUnit) : (s.setConfig x).query = s.query := rfl
@[simp] theorem State.setConfig_config (x : ConfigUnit) : (s.setConfig x).config = x := rfl
@[simp] theorem State.setConfig_settings (x : ConfigUnit) : (s.setConfig x).settings = s.settings := rfl
@[simp] theorem State.setConfig_pins (x : ConfigUnit) : (s.setConfig x).pins = s.pins := rfl
@[simp] theorem State.setConfig_choices (x : ConfigUnit) : (s.setConfig x).choices = s.choices := rfl
@[simp] theorem State.setConfig_pending (x : ConfigUnit) : (s.setConfig x).pending = s.pending := rfl

/-! ### setSettings -/

@[simp] theorem State.setSettings_clock (x : Settings) : (s.setSettings x).clock = s.clock := rfl
@[simp] theorem State.setSettings_port (x : Settings) : (s.setSettings x).port = s.port := rfl
@[simp] theorem State.setSettings_agree (x : Settings) : (s.setSettings x).agree = s.agree := rfl
@[simp] theorem State.setSettings_line (x : Settings) : (s.setSettings x).line = s.line := rfl
@[simp] theorem State.setSettings_input (x : Settings) : (s.setSettings x).input = s.input := rfl
@[simp] theorem State.setSettings_journal (x : Settings) : (s.setSettings x).journal = s.journal := rfl
@[simp] theorem State.setSettings_reader (x : Settings) : (s.setSettings x).reader = s.reader := rfl
@[simp] theorem State.setSettings_news (x : Settings) : (s.setSettings x).news = s.news := rfl
@[simp] theorem State.setSettings_watch (x : Settings) : (s.setSettings x).watch = s.watch := rfl
@[simp] theorem State.setSettings_points (x : Settings) : (s.setSettings x).points = s.points := rfl
@[simp] theorem State.setSettings_checks (x : Settings) : (s.setSettings x).checks = s.checks := rfl
@[simp] theorem State.setSettings_marks (x : Settings) : (s.setSettings x).marks = s.marks := rfl
@[simp] theorem State.setSettings_dials (x : Settings) : (s.setSettings x).dials = s.dials := rfl
@[simp] theorem State.setSettings_query (x : Settings) : (s.setSettings x).query = s.query := rfl
@[simp] theorem State.setSettings_config (x : Settings) : (s.setSettings x).config = s.config := rfl
@[simp] theorem State.setSettings_settings (x : Settings) : (s.setSettings x).settings = x := rfl
@[simp] theorem State.setSettings_pins (x : Settings) : (s.setSettings x).pins = s.pins := rfl
@[simp] theorem State.setSettings_choices (x : Settings) : (s.setSettings x).choices = s.choices := rfl
@[simp] theorem State.setSettings_pending (x : Settings) : (s.setSettings x).pending = s.pending := rfl

/-! ### setPins -/

@[simp] theorem State.setPins_clock (x : Pins) : (s.setPins x).clock = s.clock := rfl
@[simp] theorem State.setPins_port (x : Pins) : (s.setPins x).port = s.port := rfl
@[simp] theorem State.setPins_agree (x : Pins) : (s.setPins x).agree = s.agree := rfl
@[simp] theorem State.setPins_line (x : Pins) : (s.setPins x).line = s.line := rfl
@[simp] theorem State.setPins_input (x : Pins) : (s.setPins x).input = s.input := rfl
@[simp] theorem State.setPins_journal (x : Pins) : (s.setPins x).journal = s.journal := rfl
@[simp] theorem State.setPins_reader (x : Pins) : (s.setPins x).reader = s.reader := rfl
@[simp] theorem State.setPins_news (x : Pins) : (s.setPins x).news = s.news := rfl
@[simp] theorem State.setPins_watch (x : Pins) : (s.setPins x).watch = s.watch := rfl
@[simp] theorem State.setPins_points (x : Pins) : (s.setPins x).points = s.points := rfl
@[simp] theorem State.setPins_checks (x : Pins) : (s.setPins x).checks = s.checks := rfl
@[simp] theorem State.setPins_marks (x : Pins) : (s.setPins x).marks = s.marks := rfl
@[simp] theorem State.setPins_dials (x : Pins) : (s.setPins x).dials = s.dials := rfl
@[simp] theorem State.setPins_query (x : Pins) : (s.setPins x).query = s.query := rfl
@[simp] theorem State.setPins_config (x : Pins) : (s.setPins x).config = s.config := rfl
@[simp] theorem State.setPins_settings (x : Pins) : (s.setPins x).settings = s.settings := rfl
@[simp] theorem State.setPins_pins (x : Pins) : (s.setPins x).pins = x := rfl
@[simp] theorem State.setPins_choices (x : Pins) : (s.setPins x).choices = s.choices := rfl
@[simp] theorem State.setPins_pending (x : Pins) : (s.setPins x).pending = s.pending := rfl

/-! ### setChoices -/

@[simp] theorem State.setChoices_clock (x : Nat) : (s.setChoices x).clock = s.clock := rfl
@[simp] theorem State.setChoices_port (x : Nat) : (s.setChoices x).port = s.port := rfl
@[simp] theorem State.setChoices_agree (x : Nat) : (s.setChoices x).agree = s.agree := rfl
@[simp] theorem State.setChoices_line (x : Nat) : (s.setChoices x).line = s.line := rfl
@[simp] theorem State.setChoices_input (x : Nat) : (s.setChoices x).input = s.input := rfl
@[simp] theorem State.setChoices_journal (x : Nat) : (s.setChoices x).journal = s.journal := rfl
@[simp] theorem State.setChoices_reader (x : Nat) : (s.setChoices x).reader = s.reader := rfl
@[simp] theorem State.setChoices_news (x : Nat) : (s.setChoices x).news = s.news := rfl
@[simp] theorem State.setChoices_watch (x : Nat) : (s.setChoices x).watch = s.watch := rfl
@[simp] theorem State.setChoices_points (x : Nat) : (s.setChoices x).points = s.points := rfl
@[simp] theorem State.setChoices_checks (x : Nat) : (s.setChoices x).checks = s.checks := rfl
@[simp] theorem State.setChoices_marks (x : Nat) : (s.setChoices x).marks = s.marks := rfl
@[simp] theorem State.setChoices_dials (x : Nat) : (s.setChoices x).dials = s.dials := rfl
@[simp] theorem State.setChoices_query (x : Nat) : (s.setChoices x).query = s.query := rfl
@[simp] theorem State.setChoices_config (x : Nat) : (s.setChoices x).config = s.config := rfl
@[simp] theorem State.setChoices_settings (x : Nat) : (s.setChoices x).settings = s.settings := rfl
@[simp] theorem State.setChoices_pins (x : Nat) : (s.setChoices x).pins = s.pins := rfl
@[simp] theorem State.setChoices_choices (x : Nat) : (s.setChoices x).choices = x := rfl
@[simp] theorem State.setChoices_pending (x : Nat) : (s.setChoices x).pending = s.pending := rfl

/-! ### setPending -/

@[simp] theorem State.setPending_clock (x : List Instr) : (s.setPending x).clock = s.clock := rfl
@[simp] theorem State.setPending_port (x : List Instr) : (s.setPending x).port = s.port := rfl
@[simp] theorem State.setPending_agree (x : List Instr) : (s.setPending x).agree = s.agree := rfl
@[simp] theorem State.setPending_line (x : List Instr) : (s.setPending x).line = s.line := rfl
@[simp] theorem State.setPending_input (x : List Instr) : (s.setPending x).input = s.input := rfl
@[simp] theorem State.setPending_journal (x : List Instr) : (s.setPending x).journal = s.journal := rfl
@[simp] theorem State.setPending_reader (x : List Instr) : (s.setPending x).reader = s.reader := rfl
@[simp] theorem State.setPending_news (x : List Instr) : (s.setPending x).news = s.news := rfl
@[simp] theorem State.setPending_watch (x : List Instr) : (s.setPending x).watch = s.watch := rfl
@[simp] theorem State.setPending_points (x : List Instr) : (s.setPending x).points = s.points := rfl
@[simp] theorem State.setPending_checks (x : List Instr) : (s.setPending x).checks = s.checks := rfl
@[simp] theorem State.setPending_marks (x : List Instr) : (s.setPending x).marks = s.marks := rfl
@[simp] theorem State.setPending_dials (x : List Instr) : (s.setPending x).dials = s.dials := rfl
@[simp] theorem State.setPending_query (x : List Instr) : (s.setPending x).query = s.query := rfl
@[simp] theorem State.setPending_config (x : List Instr) : (s.setPending x).config = s.config := rfl
@[simp] theorem State.setPending_settings (x : List Instr) : (s.setPending x).settings = s.settings := rfl
@[simp] theorem State.setPending_pins (x : List Instr) : (s.setPending x).pins = s.pins := rfl
@[simp] theorem State.setPending_choices (x : List Instr) : (s.setPending x).choices = s.choices := rfl
@[simp] theorem State.setPending_pending (x : List Instr) : (s.setPending x).pending = x := rfl

/-! ### One update after another of the same block -/

@[simp] theorem State.setClock_setClock (x y : Clock) : (s.setClock x).setClock y = s.setClock y := rfl
@[simp] theorem State.setPort_setPort (x y : RefPort) : (s.setPort x).setPort y = s.setPort y := rfl
@[simp] theorem State.setAgree_setAgree (x y : Agreement) : (s.setAgree x).setAgree y = s.setAgree y := rfl
@[simp] theorem State.setLine_setLine (x y : LineControl) : (s.setLine x).setLine y = s.setLine y := rfl
@[simp] theorem State.setInput_setInput (x y : InputUnit) : (s.setInput x).setInput y = s.setInput y := rfl
@[simp] theorem State.setJournal_setJournal (x y : Journal) : (s.setJournal x).setJournal y = s.setJournal y := rfl
@[simp] theorem State.setReader_setReader (x y : Option Read) : (s.setReader x).setReader y = s.setReader y := rfl
@[simp] theorem State.setNews_setNews (x y : NewsUnit) : (s.setNews x).setNews y = s.setNews y := rfl
@[simp] theorem State.setWatch_setWatch (x y : List WatchEntry) : (s.setWatch x).setWatch y = s.setWatch y := rfl
@[simp] theorem State.setPoints_setPoints (x y : Vector Point 32) : (s.setPoints x).setPoints y = s.setPoints y := rfl
@[simp] theorem State.setChecks_setChecks (x y : Vector (Option CheckEntry) 256) : (s.setChecks x).setChecks y = s.setChecks y := rfl
@[simp] theorem State.setMarks_setMarks (x y : MarkUnit) : (s.setMarks x).setMarks y = s.setMarks y := rfl
@[simp] theorem State.setDials_setDials (x y : Vector Dial 4) : (s.setDials x).setDials y = s.setDials y := rfl
@[simp] theorem State.setQuery_setQuery (x y : QueryUnit) : (s.setQuery x).setQuery y = s.setQuery y := rfl
@[simp] theorem State.setConfig_setConfig (x y : ConfigUnit) : (s.setConfig x).setConfig y = s.setConfig y := rfl
@[simp] theorem State.setSettings_setSettings (x y : Settings) : (s.setSettings x).setSettings y = s.setSettings y := rfl
@[simp] theorem State.setPins_setPins (x y : Pins) : (s.setPins x).setPins y = s.setPins y := rfl
@[simp] theorem State.setChoices_setChoices (x y : Nat) : (s.setChoices x).setChoices y = s.setChoices y := rfl
@[simp] theorem State.setPending_setPending (x y : List Instr) : (s.setPending x).setPending y = s.setPending y := rfl

end Sys2Proof.Machine
end

