-- ==== Sys2Proof/Laws/Consequences.lean ====
section
/-! SUPPORT. What writing records, delivering them, and deciding on them can do to the state: the relation `Follows`, which says once
what every such operation leaves alone, that the journal only takes writes, that latches are kept, and that the queue, the hold table,
the hold store and the watch table stay within their sizes. -/

namespace Sys2Proof.Machine

/-! ### The relation -/

/-- `t` comes about from `s` by writes to the journal and what depends on them: `Delivered`, and the invariants that all of it keeps. -/
structure Follows (s t : State) : Prop extends Delivered s t where
  queue : queueFits s → queueFits t
  holds : holdsFit s → holdsFit t
  watches : t.watch.length ≤ s.watch.length
  marks : marksFit s → marksFit t
  entries : entriesSound s → entriesSound t
  lines : lineSound s → lineSound t

/-- The same for writes that are delivered to no point and to no check entry. -/
structure Writes (s t : State) : Prop extends Wrote s t where
  queue : queueFits s → queueFits t
  holds : holdsFit s → holdsFit t
  lines : lineSound s → lineSound t

theorem keepsLatches_refl (s : State) : keepsLatches s s := by simp [keepsLatches]

theorem keepsLatches_trans {s t u : State} (h : keepsLatches s t) (k : keepsLatches t u) : keepsLatches s u := by
  unfold keepsLatches at *
  ext i hi
  have h1 := congrArg (fun v => v.getLsbD i) h
  have h2 := congrArg (fun v => v.getLsbD i) k
  simp only [BitVec.getLsbD_and, BitVec.getLsbD_not] at h1 h2
  rw [← BitVec.getLsbD_eq_getElem, ← BitVec.getLsbD_eq_getElem]
  simp only [BitVec.getLsbD_and, BitVec.getLsbD_not]
  revert h1 h2
  cases s.query.latched.getLsbD i <;> cases t.query.latched.getLsbD i <;> cases u.query.latched.getLsbD i <;> simp [hi]

theorem Journal.writeAll_append (j : Journal) (xs ys : List Record) :
    j.writeAll (xs ++ ys) = (j.writeAll xs).writeAll ys := List.foldl_append

/-! ### What records do to a hold -/

theorem Hold.goesOn_refl (h : Hold) : h.goesOn h := by
  unfold Hold.goesOn
  split
  · rfl
  · exact ⟨rfl, id, rfl⟩
  · exact ⟨[], by simp, .inl (by rw [List.append_nil])⟩

/-- A hold that goes on keeps its mark. -/
theorem Hold.goesOn_mark {h x : Hold} (g : h.goesOn x) : x.mark = h.mark := by
  unfold Hold.goesOn at g
  split at g
  · rw [g]
  · rw [g.1]
  · obtain ⟨more, -, rfl | rfl⟩ := g <;> rfl

/-- A hold that goes on keeps its window, and holds only records dated within it where it did (R167). -/
theorem Hold.goesOn_dated {h x : Hold} (g : h.goesOn x)
    (d : ∀ r ∈ h.records, h.start ≤ r.date.time ∧ r.date.time ≤ h.stop) :
    ∀ r ∈ x.records, x.start ≤ r.date.time ∧ r.date.time ≤ x.stop := by
  unfold Hold.goesOn at g
  split at g
  · rw [g]; exact d
  · rw [g.1]; exact d
  · obtain ⟨more, m, rfl | rfl⟩ := g <;> intro r hr <;> rcases List.mem_append.mp hr with hr | hr <;>
      first | exact d r hr | exact m r hr

theorem Hold.goesOn_trans {h x y : Hold} (g : h.goesOn x) (k : x.goesOn y) : h.goesOn y := by
  unfold Hold.goesOn at g
  split at g
  · rw [g] at k; exact k
  · rename_i hs
    obtain ⟨e, p, w⟩ := g
    have hx : x.state = .copying := by rw [e]; exact hs
    have ey : ({ x with walk := y.walk, isPartial := y.isPartial } : Hold) =
        { h with walk := y.walk, isPartial := y.isPartial } := by rw [e]
    unfold Hold.goesOn at k ⊢
    simp only [hx, hs] at k ey
    simp only [hs]
    exact ⟨k.1.trans ey, fun q => k.2.1 (p q), k.2.2.trans w⟩
  · rename_i hs
    obtain ⟨more, m, rfl | rfl⟩ := g
    · unfold Hold.goesOn at k ⊢
      simp only [hs] at k ⊢
      obtain ⟨next, m', e⟩ := k
      refine ⟨more ++ next, ?_, by simpa only [List.append_assoc] using e⟩
      intro r hr
      rcases List.mem_append.mp hr with hr | hr
      · exact m r hr
      · exact m' r hr
    · have e : y = { h with records := h.records ++ more, state := .closed, truncated := true, walk := none, deadline := none } := k
      unfold Hold.goesOn
      simp only [hs]
      exact ⟨more, m, .inr e⟩

theorem goesOn_refl (hs : List Hold) : List.Forall₂ Hold.goesOn hs hs := by
  induction hs with
  | nil => exact .nil
  | cons h rest ih => exact .cons h.goesOn_refl ih

theorem goesOn_trans {xs ys zs : List Hold} (g : List.Forall₂ Hold.goesOn xs ys) (k : List.Forall₂ Hold.goesOn ys zs) :
    List.Forall₂ Hold.goesOn xs zs := by
  induction g generalizing zs with
  | nil => exact k
  | cons a _ ih =>
    cases k with
    | cons b k => exact .cons (Hold.goesOn_trans a b) (ih k)

theorem goesOn_marks {xs ys : List Hold} (g : List.Forall₂ Hold.goesOn xs ys) : ys.map Hold.mark = xs.map Hold.mark := by
  induction g with
  | nil => rfl
  | cons a _ ih => rw [List.map_cons, List.map_cons, Hold.goesOn_mark a, ih]

/-- What comes of a longer list begins with what comes of its beginning. -/
theorem goesOn_append {xs made zs : List Hold} (g : List.Forall₂ Hold.goesOn (xs ++ made) zs) :
    ∃ kept rest, zs = kept ++ rest ∧ List.Forall₂ Hold.goesOn xs kept := by
  induction xs generalizing zs with
  | nil => exact ⟨[], zs, rfl, .nil⟩
  | cons x rest ih =>
    cases g with
    | cons a g =>
      obtain ⟨kept, more, rfl, k⟩ := ih g
      exact ⟨_ :: kept, more, rfl, .cons a k⟩

theorem goesOn_map (f : Hold → Hold) (h : ∀ x : Hold, x.goesOn (f x)) (xs : List Hold) : List.Forall₂ Hold.goesOn xs (xs.map f) := by
  induction xs with
  | nil => exact .nil
  | cons x rest ih => exact .cons (h x) ih

theorem goesOn_set (xs : List Hold) (i : Nat) (h x : Hold) (hi : xs[i]? = some h) (g : h.goesOn x) :
    List.Forall₂ Hold.goesOn xs (xs.set i x) := by
  induction xs generalizing i with
  | nil => simp at hi
  | cons y ys ih =>
    cases i with
    | zero =>
      simp only [List.getElem?_cons_zero, Option.some.injEq] at hi
      subst hi
      exact .cons g (goesOn_refl ys)
    | succ i =>
      simp only [List.getElem?_cons_succ] at hi
      exact .cons y.goesOn_refl (ih i hi)

theorem Delivered.refl (s : State) : Delivered s s :=
  { clock := rfl, port := rfl, agree := rfl, input := rfl, dials := rfl, config := rfl, settings := rfl, pins := rfl
    pending := rfl, answers := rfl, restartPending := rfl, enables := rfl, cause := rfl, running := rfl, activity := rfl
    freeAt := rfl, quietFrom := rfl, fairness := rfl, trouble := rfl, counters := rfl, beaconSlot := rfl, heard := rfl, silence := rfl
    sequences := rfl, gapsHeard := rfl, target := rfl, definitions := fun _ => rfl, reading := rfl, holding := ⟨_, [], (List.append_nil _).symm, goesOn_refl _⟩
    journal := ⟨[], rfl⟩, latched := keepsLatches_refl s }

theorem Delivered.trans {s t u : State} (h : Delivered s t) (k : Delivered t u) : Delivered s u where
  clock := k.clock.trans h.clock
  port := k.port.trans h.port
  agree := k.agree.trans h.agree
  input := k.input.trans h.input
  dials := k.dials.trans h.dials
  config := k.config.trans h.config
  settings := k.settings.trans h.settings
  pins := k.pins.trans h.pins
  pending := k.pending.trans h.pending
  answers := k.answers.trans h.answers
  restartPending := k.restartPending.trans h.restartPending
  enables := k.enables.trans h.enables
  cause := k.cause.trans h.cause
  running := k.running.trans h.running
  activity := k.activity.trans h.activity
  freeAt := k.freeAt.trans h.freeAt
  quietFrom := k.quietFrom.trans h.quietFrom
  fairness := k.fairness.trans h.fairness
  trouble := k.trouble.trans h.trouble
  counters := k.counters.trans h.counters
  beaconSlot := k.beaconSlot.trans h.beaconSlot
  heard := k.heard.trans h.heard
  silence := k.silence.trans h.silence
  sequences := k.sequences.trans h.sequences
  gapsHeard := k.gapsHeard.trans h.gapsHeard
  target := k.target.trans h.target
  definitions := fun p => (k.definitions p).trans (h.definitions p)
  reading := k.reading.trans h.reading
  holding := by
    obtain ⟨kept, made, e, g⟩ := h.holding
    obtain ⟨kept', made', e', g'⟩ := k.holding
    rw [e] at g'
    obtain ⟨l, r, rfl, gl⟩ := goesOn_append g'
    exact ⟨l, r ++ made', by rw [e', List.append_assoc], goesOn_trans g gl⟩
  journal := by
    obtain ⟨xs, hx⟩ := h.journal
    obtain ⟨ys, hy⟩ := k.journal
    exact ⟨xs ++ ys, by rw [hy, hx, Journal.writeAll_append]⟩
  latched := keepsLatches_trans h.latched k.latched

theorem Wrote.refl (s : State) : Wrote s s :=
  { Delivered.refl s with
    points := rfl, checks := rfl, watch := rfl, own := rfl, outgoing := rfl, notSent := rfl, markSlot := rfl, held := goesOn_refl _ }

theorem Wrote.trans {s t u : State} (h : Wrote s t) (k : Wrote t u) : Wrote s u :=
  { Delivered.trans h.toDelivered k.toDelivered with
    points := k.points.trans h.points, checks := k.checks.trans h.checks, watch := k.watch.trans h.watch
    own := k.own.trans h.own, outgoing := k.outgoing.trans h.outgoing, notSent := k.notSent.trans h.notSent
    markSlot := k.markSlot.trans h.markSlot, held := goesOn_trans h.held k.held }

theorem Follows.refl (s : State) : Follows s s :=
  { Delivered.refl s with
    queue := id, holds := id, watches := le_refl _, marks := id, entries := id, lines := id }

theorem Follows.trans {s t u : State} (h : Follows s t) (k : Follows t u) : Follows s u :=
  { Delivered.trans h.toDelivered k.toDelivered with
    queue := fun q => k.queue (h.queue q), holds := fun q => k.holds (h.holds q)
    watches := le_trans k.watches h.watches, marks := fun q => k.marks (h.marks q)
    entries := fun q => k.entries (h.entries q), lines := fun q => k.lines (h.lines q) }

theorem Writes.refl (s : State) : Writes s s := { Wrote.refl s with queue := id, holds := id, lines := id }

theorem Writes.trans {s t u : State} (h : Writes s t) (k : Writes t u) : Writes s u :=
  { Wrote.trans h.toWrote k.toWrote with
    queue := fun q => k.queue (h.queue q), holds := fun q => k.holds (h.holds q), lines := fun q => k.lines (h.lines q) }

theorem Writes.follows {s t : State} (h : Writes s t) : Follows s t :=
  { h.toDelivered with
    queue := h.queue, holds := h.holds, watches := by rw [h.watch]
    marks := by intro q; unfold marksFit at *; rw [h.outgoing]; exact q
    entries := by intro q; unfold entriesSound at *; rw [h.checks]; exact q
    lines := h.lines }

/-- A step that leaves the line controller, the news unit's sender, the configuration read and oscillator time alone keeps `lineSound`. -/
theorem lineSound_of {s t : State} (config : t.config = s.config) (clock : t.clock = s.clock) (line : t.line = s.line)
    (sender : t.news.sender = s.news.sender) : lineSound s → lineSound t := by
  intro h
  unfold lineSound at *
  rw [config, clock, line, sender]
  exact h

/-- A step that touches only what `Writes` leaves open. -/
theorem writes_of {s t : State} (clock : t.clock = s.clock := by rfl) (port : t.port = s.port := by rfl)
    (agree : t.agree = s.agree := by rfl) (input : t.input = s.input := by rfl) (dials : t.dials = s.dials := by rfl)
    (config : t.config = s.config := by rfl) (settings : t.settings = s.settings := by rfl)
    (pins : t.pins = s.pins := by rfl) (pending : t.pending = s.pending := by rfl)
    (query : t.query.answers = s.query.answers ∧ t.query.restartPending = s.query.restartPending ∧
      t.query.enables = s.query.enables ∧ t.query.cause = s.query.cause := by exact ⟨rfl, rfl, rfl, rfl⟩)
    (line : t.line.running = s.line.running ∧ t.line.activity = s.line.activity ∧ t.line.freeAt = s.line.freeAt ∧
      t.line.quietFrom = s.line.quietFrom ∧ t.line.fairness = s.line.fairness ∧ t.line.trouble = s.line.trouble ∧
      t.line.counters = s.line.counters := by exact ⟨rfl, rfl, rfl, rfl, rfl, rfl, rfl⟩)
    (slots : t.line.slots[(0 : TelegramClass)] = s.line.slots[(0 : TelegramClass)] ∧
      t.line.slots[(1 : TelegramClass)] = s.line.slots[(1 : TelegramClass)] := by exact ⟨rfl, rfl⟩)
    (ears : t.news.heard = s.news.heard ∧ t.news.silence = s.news.silence ∧
      t.news.lastSequence = s.news.lastSequence ∧ t.news.flushTarget = s.news.flushTarget ∧
      t.news.counters.gapsHeard = s.news.counters.gapsHeard := by exact ⟨rfl, rfl, rfl, rfl, rfl⟩)
    (points : t.points = s.points := by rfl) (checks : t.checks = s.checks := by rfl) (watch : t.watch = s.watch := by rfl)
    (marks : t.marks.own = s.marks.own ∧ t.marks.outgoing = s.marks.outgoing ∧ t.marks.notSent = s.marks.notSent ∧
      List.Forall₂ Hold.goesOn s.marks.holds t.marks.holds := by exact ⟨rfl, rfl, rfl, goesOn_refl _⟩)
    (reading : t.reader.map Read.identity = s.reader.map Read.identity := by rfl)
    (journal : ∃ rs, t.journal = s.journal.writeAll rs := by exact ⟨[], rfl⟩)
    (latched : keepsLatches s t := by exact keepsLatches_refl _) (queue : queueFits s → queueFits t := by exact id)
    (holds : holdsFit s → holdsFit t := by exact id)
    (lines : lineSound s → lineSound t := by exact lineSound_of rfl rfl rfl rfl) : Writes s t :=
  { clock := clock, port := port, agree := agree, input := input, dials := dials, config := config
    settings := settings, pins := pins, pending := pending, answers := query.1, restartPending := query.2.1
    enables := query.2.2.1, cause := query.2.2.2, running := line.1, activity := line.2.1, freeAt := line.2.2.1
    quietFrom := line.2.2.2.1, fairness := line.2.2.2.2.1, trouble := line.2.2.2.2.2.1, counters := line.2.2.2.2.2.2
    beaconSlot := slots.1, markSlot := slots.2, heard := ears.1, silence := ears.2.1, sequences := ears.2.2.1
    target := ears.2.2.2.1, gapsHeard := ears.2.2.2.2, definitions := fun p => by rw [points], reading := reading
    holding := ⟨_, [], (List.append_nil _).symm, marks.2.2.2⟩, journal := journal, latched := latched
    points := points, checks := checks, watch := watch, own := marks.1, outgoing := marks.2.1, notSent := marks.2.2.1
    held := marks.2.2.2, queue := queue, holds := holds, lines := lines }

theorem follows_fold {α : Type} (f : State → α → State) (h : ∀ s x, Follows s (f s x)) (l : List α) (s : State) :
    Follows s (l.foldl f s) := by
  induction l generalizing s with
  | nil => exact Follows.refl s
  | cons x xs ih => exact (h s x).trans (ih (f s x))

theorem writes_fold {α : Type} (f : State → α → State) (h : ∀ s x, Writes s (f s x)) (l : List α) (s : State) :
    Writes s (l.foldl f s) := by
  induction l generalizing s with
  | nil => exact Writes.refl s
  | cons x xs ih => exact (h s x).trans (ih (f s x))

/-! ### Latches, choices, tables -/

theorem keepsLatches_or (s t : State) (m : BitVec 11) (h : t.query.latched = s.query.latched ||| m) :
    keepsLatches s t := by
  unfold keepsLatches
  rw [h]
  ext i hi
  simp only [BitVec.getElem_and, BitVec.getElem_not, BitVec.getElem_or]
  cases s.query.latched[i] <;> cases m[i] <;> simp

theorem writes_latch (a : AlarmSource) (s : State) : Writes s (latch a s) :=
  writes_of (latched := keepsLatches_or _ _ a.mask rfl)

theorem writes_latchIf (a : AlarmSource) (c : Bool) (s : State) : Writes s (latchIf a c s) := by
  unfold latchIf
  split
  · exact writes_latch a s
  · exact Writes.refl s

theorem writes_relatch (s : State) : Writes s (relatch s) :=
  writes_of (latched := keepsLatches_or _ _ (liveMask s) rfl)

theorem writes_setChoices (n : Nat) (s : State) : Writes s (s.setChoices n) := writes_of

theorem writes_inAnyOrder {α : Type} (l : List α) (s : State) : Writes s (inAnyOrder l s).2 := by
  unfold inAnyOrder
  dsimp only
  split
  · exact Writes.refl s
  · exact writes_setChoices _ s

theorem getElem_setAt_self {α : Type} {n : Nat} (v : Vector α n) (i : Fin n) (x : α) : (setAt v i x)[i] = x :=
  Vector.getElem_set_self ..

theorem getElem_setAt_ne {α : Type} {n : Nat} (v : Vector α n) (i j : Fin n) (x : α) (h : i ≠ j) :
    (setAt v i x)[j] = v[j] :=
  Vector.getElem_set_ne (h := fun e => h (Fin.ext e)) ..

theorem writes_setHolds (hs : List Hold) (s : State)
    (h : holdsFit s → storeCount hs ≤ Config.storeSize ∧ ∀ x ∈ hs, x.sound)
    (g : List.Forall₂ Hold.goesOn s.marks.holds hs) :
    Writes s (setHolds hs s) :=
  Writes.trans (writes_of
      (holds := by
        intro q
        have m := goesOn_marks g
        have hl : hs.length = s.marks.holds.length := by simpa using congrArg List.length m
        have hn : hs.map Hold.identity = s.marks.holds.map Hold.identity := by
          have := congrArg (List.map fun x : MarkInfo => (x.originator, x.number)) m
          simp only [List.map_map] at this
          exact this
        exact ⟨by rw [State.setMarks_marks, hl]; exact q.1, (h q).1, (h q).2, by
          rw [State.setMarks_marks, hn]; exact q.2.2.2⟩)
      (marks := ⟨rfl, rfl, rfl, g⟩) : Writes s (s.setMarks { s.marks with holds := hs }))
    (writes_latchIf _ _ _)

/-- Replacing one hold of a sound table by a sound one. -/
theorem sound_set {hs : List Hold} (i : Nat) (x : Hold) (a : ∀ h ∈ hs, h.sound) (b : x.sound) :
    ∀ h ∈ hs.set i x, h.sound := by
  intro h hh
  rcases List.mem_or_eq_of_mem_set hh with h1 | h1
  · exact a h h1
  · rw [h1]; exact b

theorem Hold.sound_truncate (h : Hold) (a : h.sound) : h.truncate.sound := ⟨a.1, a.2.1, rfl, rfl⟩

theorem Hold.sound_close (h : Hold) (a : h.sound) : h.close.sound := ⟨a.1, a.2.1, rfl, rfl⟩

theorem Hold.sound_lose (h : Hold) (r : Record) (a : h.sound) : (h.lose r).sound := by
  unfold Hold.lose
  split
  · rename_i hs
    simp only [Bool.and_eq_true, beq_iff_eq] at hs
    obtain ⟨b, c, d⟩ := a
    rw [hs.1] at d
    refine ⟨b, c, ?_⟩
    simp only [hs.1]
    exact ⟨rfl, d.2⟩
  · exact a

theorem setHolds_holds (hs : List Hold) (s : State) : (setHolds hs s).marks.holds = hs := by
  simp only [setHolds, latchIf, latch]
  split <;> rfl

/-! ### Slots, the arbiter, the sender (R54, R103–R108) -/

/-- Filling a slot that is EMPTY keeps `lineSound`, where the news unit's sender agrees with the class 2 slot after it. -/
theorem lineSound_fill {s t : State} (k : TelegramClass) (x : OutTelegram) (hv : s.line.slots[k] = .vacant)
    (hk : x.payload.slotClass = k) (config : t.config = s.config) (clock : t.clock = s.clock)
    (running : t.line.running = s.line.running) (activity : t.line.activity = s.line.activity)
    (freeAt : t.line.freeAt = s.line.freeAt) (quietFrom : t.line.quietFrom = s.line.quietFrom) (slots : t.line.slots = setAt s.line.slots k (.waiting x 0))
    (sender : lineSound s → ∀ n, t.news.sender = .placed n ↔
      (t.line.slots[(2 : TelegramClass)].telegram.map OutTelegram.payload) = some (.news n)) :
    lineSound s → lineSound t := by
  intro h
  have hs := sender h
  obtain ⟨h1, h2, h3, h4, h5, h6, h7, _⟩ := h
  have get : ∀ j : TelegramClass, t.line.slots[j] = if k = j then .waiting x 0 else s.line.slots[j] := by
    intro j
    rw [slots]
    split
    · rename_i e; subst e; exact getElem_setAt_self ..
    · rename_i e; exact getElem_setAt_ne _ _ _ _ e
  have send : ∀ j : TelegramClass, t.line.slots[j].isSending = s.line.slots[j].isSending := by
    intro j
    rw [get j]
    split
    · rename_i e; subst e; rw [hv]; rfl
    · rfl
  refine ⟨?_, ?_, ?_, ?_, ?_, ?_, ?_, hs⟩
  · rw [running, config]; exact h1
  · rw [running, activity]; exact h2
  · rw [activity]; simp only [send]; exact h3
  · simp only [send]; exact h4
  · rw [activity, freeAt]; exact h5
  · rw [running, activity, quietFrom]; exact h6
  · intro j
    rw [get j, clock]
    split
    · rename_i e
      subst e
      exact ⟨hk, by decide, fun _ => rfl⟩
    · exact h7 j

theorem slots_placeTelegram (k : TelegramClass) (t : OutTelegram) (s : State) :
    (placeTelegram k t s).line.slots = setAt s.line.slots k (.waiting t 0) := rfl

theorem slot_placeTelegram_ne (k j : TelegramClass) (t : OutTelegram) (s : State) (h : k ≠ j) :
    (placeTelegram k t s).line.slots[j] = s.line.slots[j] := getElem_setAt_ne _ _ _ _ h

theorem writes_placeNews (t : NewsTelegram) (s : State) (hv : s.line.slots[(2 : TelegramClass)] = .vacant) :
    Writes s (placeNews t s) :=
  writes_of (slots := ⟨slot_placeTelegram_ne 2 0 _ s (by decide), slot_placeTelegram_ne 2 1 _ s (by decide)⟩)
    (lines := lineSound_fill 2 { dest := everyStation, payload := .news t } hv rfl rfl rfl rfl rfl rfl rfl rfl (by
      intro _ n
      have : (placeNews t s).line.slots[(2 : TelegramClass)] =
          .waiting { dest := everyStation, payload := .news t } 0 := getElem_setAt_self ..
      rw [this]
      have hsend : (placeNews t s).news.sender = .placed t := rfl
      rw [hsend]
      simp [Slot.telegram]))

theorem writes_placeAnswer (a : Answer) (s : State) (hv : s.line.slots[(2 : TelegramClass)] = .vacant) :
    Writes s (placeAnswer a s) :=
  writes_of (slots := ⟨slot_placeTelegram_ne 2 0 _ s (by decide), slot_placeTelegram_ne 2 1 _ s (by decide)⟩)
    (lines := lineSound_fill 2 (answerTelegram a) hv rfl rfl rfl rfl rfl rfl rfl rfl (by
      intro h n
      have : (placeAnswer a s).line.slots[(2 : TelegramClass)] = .waiting (answerTelegram a) 0 := getElem_setAt_self ..
      rw [this]
      have hsend : (placeAnswer a s).news.sender = s.news.sender := rfl
      rw [hsend, h.2.2.2.2.2.2.2 n, hv]
      simp [Slot.telegram, answerTelegram]))

theorem writes_arbitrate (s : State) : Writes s (arbitrate s) := by
  unfold arbitrate
  split
  · rename_i hv
    repeat' split
    all_goals first
      | exact Writes.refl s
      | exact writes_placeAnswer _ s hv
      | exact writes_placeNews _ s hv
  · exact Writes.refl s

/-- Forming while the sender is NONE. -/
theorem writes_formNews (s : State) (hs : s.news.sender = .idle) : Writes s (formNews s) :=
  writes_of
    (queue := by
      intro h
      simp only [queueFits, formNews, State.setNews_news, List.length_drop] at *
      omega)
    (lines := by
      intro ⟨h1, h2, h3, h4, h5, h6, h7, h8⟩
      refine ⟨h1, h2, h3, h4, h5, h6, h7, ?_⟩
      intro n
      have := h8 n
      rw [hs] at this
      change Sender.formed _ = _ ↔ (s.line.slots[(2 : TelegramClass)].telegram.map OutTelegram.payload) = some (.news n)
      rw [← this]
      simp)

theorem newsDue_idle {s : State} (h : newsDue s = true) : s.news.sender = .idle := by
  simp only [newsDue, Bool.and_eq_true, beq_iff_eq] at h
  exact h.1.1.1

theorem writes_newsLook (s : State) : Writes s (newsLook s) := by
  unfold newsLook
  split
  · rename_i h
    exact (writes_formNews s (newsDue_idle h)).trans (writes_arbitrate _)
  · exact Writes.refl s

theorem writes_announce (r : Record) (s : State) : Writes s (announce r s) := by
  unfold announce
  split
  · rename_i h
    refine Writes.trans (t := s.setNews { s.news with queue := s.news.queue ++ [(r, s.clock.osc)] }) ?_ (writes_newsLook _)
    exact writes_of (queue := by
      intro _
      simp only [queueFits, State.setNews_news, List.length_append, List.length_singleton]
      omega)
  · exact Writes.trans writes_of (writes_latch _ _)

/-! ### The history reader's part (R96, R98) -/

theorem writes_placeHistory (rd : Read) (s : State) (hv : s.line.slots[(3 : TelegramClass)] = .vacant)
    (hr : s.reader.map Read.identity = some rd.identity) : Writes s (placeHistory rd s) :=
  writes_of (slots := ⟨slot_placeTelegram_ne 3 0 _ _ (by decide), slot_placeTelegram_ne 3 1 _ _ (by decide)⟩)
    (reading := hr.symm)
    (lines := lineSound_fill 3 (historyTelegram rd) hv rfl rfl rfl rfl rfl rfl rfl rfl (by
      intro h n
      have : (placeHistory rd s).line.slots[(2 : TelegramClass)] = s.line.slots[(2 : TelegramClass)] :=
        slot_placeTelegram_ne 3 2 _ _ (by decide)
      rw [this]
      exact h.2.2.2.2.2.2.2 n))

theorem writes_assemble (rd : Read) (s : State) (hr : s.reader.map Read.identity = some rd.identity) :
    Writes s (assemble rd s) := by
  unfold assemble
  dsimp only
  split
  · rename_i hv
    exact writes_placeHistory _ s hv hr
  · exact writes_of (reading := hr.symm)

theorem writes_collectLook (s : State) : Writes s (collectLook s) := by
  unfold collectLook
  split
  · rename_i hr
    split
    · exact writes_assemble _ s (by rw [hr]; rfl)
    · exact Writes.refl s
  · exact Writes.refl s

/-! ### Holds (R169–R172) -/

theorem storeCount_map (f : Hold → Hold) (h : ∀ x, (f x).records = x.records) (hs : List Hold) :
    storeCount (hs.map f) = storeCount hs := by
  simp [storeCount, Function.comp_def, h]

theorem storeCount_set (hs : List Hold) (i : Nat) (h x : Hold) (hi : hs[i]? = some h) :
    storeCount (hs.set i x) + h.records.length = storeCount hs + x.records.length := by
  induction hs generalizing i with
  | nil => simp at hi
  | cons y ys ih =>
    cases i with
    | zero =>
      simp only [List.getElem?_cons_zero, Option.some.injEq] at hi
      subst hi
      simp only [storeCount, List.set_cons_zero, List.map_cons, List.sum_cons]
      omega
    | succ i =>
      simp only [List.getElem?_cons_succ] at hi
      have := ih i hi
      simp only [storeCount, List.set_cons_succ, List.map_cons, List.sum_cons] at *
      omega

theorem Hold.truncate_records (h : Hold) : h.truncate.records = h.records := rfl

theorem Hold.close_records (h : Hold) : h.close.records = h.records := rfl

theorem Hold.lose_records (h : Hold) (r : Record) : (h.lose r).records = h.records := by
  unfold Hold.lose
  split <;> rfl

theorem Hold.goesOn_lose (h : Hold) (r : Record) : h.goesOn (h.lose r) := by
  unfold Hold.lose
  split
  · rename_i c
    simp only [Bool.and_eq_true, beq_iff_eq] at c
    unfold Hold.goesOn
    simp only [c.1]
    exact ⟨trivial, fun p => by rw [p, Bool.true_or], by rw [c.2]; rfl⟩
  · exact h.goesOn_refl

theorem writes_mapHolds (f : Hold → Hold) (h : ∀ x, (f x).records = x.records) (g : ∀ x : Hold, x.goesOn (f x))
    (hs : ∀ x, x.sound → (f x).sound) (s : State) : Writes s (setHolds (s.marks.holds.map f) s) :=
  writes_setHolds _ _ (by
    intro ⟨_, b, c, _⟩
    rw [storeCount_map f h]
    refine ⟨b, fun x hx => ?_⟩
    obtain ⟨y, hy, rfl⟩ := List.mem_map.mp hx
    exact hs y (c y hy)) (goesOn_map f g _)

/-- A FILLING hold takes a record of its window, or closes TRUNCATED (R170, R172). -/
theorem writes_takeInto (i : Nat) (h : Hold) (r : Record) (s : State) (hi : s.marks.holds[i]? = some h)
    (hf : h.state = .filling) (hw : h.inWindow r = true) : Writes s (takeInto i h r s).1 := by
  unfold takeInto
  split
  · rename_i hlt
    refine writes_setHolds _ _ ?_ (goesOn_set _ i h _ hi ?_)
    · intro ⟨_, b, c, _⟩
      have := storeCount_set _ i h { h with records := h.records ++ [r] } hi
      simp only [List.length_append, List.length_singleton] at this
      exact ⟨by omega, sound_set i _ c (c h (List.mem_of_getElem? hi))⟩
    · unfold Hold.goesOn
      simp only [hf]
      simp only [Hold.inWindow, Bool.and_eq_true, decide_eq_true_eq] at hw
      exact ⟨[r], by simpa using hw, .inl rfl⟩
  · refine writes_setHolds _ _ ?_ (goesOn_set _ i h _ hi ?_)
    · intro ⟨_, b, c, _⟩
      have := storeCount_set _ i h h.truncate hi
      rw [Hold.truncate_records] at this
      exact ⟨by omega, sound_set i _ c (Hold.sound_truncate h (c h (List.mem_of_getElem? hi)))⟩
    · unfold Hold.goesOn
      simp only [hf]
      exact ⟨[], by simp, .inr (by simp [Hold.truncate])⟩

/-- The records that taking a record into a hold leaves to write are HOLD records. -/
theorem takeInto_caused (i : Nat) (h : Hold) (r : Record) (s : State) : ∀ x ∈ (takeInto i h r s).2, x.kind = .hold := by
  unfold takeInto
  split
  · simp
  · simp [holdDraft, draft]

theorem writes_offerTo (r : Record) (acc : State × List Record) (i : Nat) : Writes acc.1 (offerTo r acc i).1 := by
  unfold offerTo
  split
  · rename_i h hi
    split
    · rename_i c
      simp only [Bool.and_eq_true, beq_iff_eq] at c
      exact writes_takeInto i h r acc.1 hi c.1 c.2
    · exact Writes.refl _
  · exact Writes.refl _

theorem offerTo_caused (r : Record) (acc : State × List Record) (i : Nat) (h : ∀ x ∈ acc.2, x.kind = .hold) :
    ∀ x ∈ (offerTo r acc i).2, x.kind = .hold := by
  unfold offerTo
  split
  · split
    · intro x hx
      simp only [List.mem_append] at hx
      rcases hx with hx | hx
      · exact h x hx
      · exact takeInto_caused i _ r acc.1 x hx
    · exact h
  · exact h

theorem writes_offers (r : Record) (order : List Nat) (acc : State × List Record) :
    Writes acc.1 (order.foldl (offerTo r) acc).1 := by
  induction order generalizing acc with
  | nil => exact Writes.refl _
  | cons i rest ih => exact (writes_offerTo r acc i).trans (ih (offerTo r acc i))

theorem offers_caused (r : Record) (order : List Nat) (acc : State × List Record) (h : ∀ x ∈ acc.2, x.kind = .hold) :
    ∀ x ∈ (order.foldl (offerTo r) acc).2, x.kind = .hold := by
  induction order generalizing acc with
  | nil => exact h
  | cons i rest ih => exact ih (offerTo r acc i) (offerTo_caused r acc i h)

/-! ### Everything that leaves the journal itself alone -/

/-- The operations above write nothing. -/
theorem journal_setHolds (hs : List Hold) (s : State) : (setHolds hs s).journal = s.journal := by
  simp only [setHolds, latchIf, latch]
  split <;> rfl

theorem journal_arbitrate (s : State) : (arbitrate s).journal = s.journal := by
  unfold arbitrate
  repeat' split
  all_goals rfl

theorem journal_newsLook (s : State) : (newsLook s).journal = s.journal := by
  unfold newsLook
  split
  · rw [journal_arbitrate]; rfl
  · rfl

theorem journal_announce (r : Record) (s : State) : (announce r s).journal = s.journal := by
  unfold announce
  split
  · rw [journal_newsLook]; rfl
  · rfl

theorem journal_collectLook (s : State) : (collectLook s).journal = s.journal := by
  unfold collectLook assemble
  repeat' split
  all_goals rfl

theorem journal_inAnyOrder {α : Type} (l : List α) (s : State) : (inAnyOrder l s).2.journal = s.journal := by
  unfold inAnyOrder
  dsimp only
  split <;> rfl

theorem journal_takeInto (i : Nat) (h : Hold) (r : Record) (s : State) : (takeInto i h r s).1.journal = s.journal := by
  unfold takeInto
  split <;> exact journal_setHolds _ _

theorem journal_offers (r : Record) (order : List Nat) (acc : State × List Record) :
    (order.foldl (offerTo r) acc).1.journal = acc.1.journal := by
  induction order generalizing acc with
  | nil => rfl
  | cons i rest ih =>
    rw [List.foldl_cons, ih]
    unfold offerTo
    split
    · split
      · exact journal_takeInto i _ r acc.1
      · rfl
    · rfl

/-! ### A write (R87–R89) -/

/-- What `Follows` says apart from the journal. -/
theorem Writes.withJournal {s t : State} (h : Writes s t) (j : Journal) (hj : ∃ rs, j = s.journal.writeAll rs) :
    Writes s (t.setJournal j) :=
  { h with journal := hj, latched := h.latched, queue := h.queue, holds := h.holds }

/-- The records of the journal once the oldest has made room. -/
def Journal.room (j : Journal) : Journal :=
  { j with records := if j.records.length < Config.journalSize then j.records else j.records.drop 1 }

theorem replaceOldest_spec (s : State) :
    (replaceOldest s).1.journal = s.journal.room ∧
      (∀ j, (∃ rs, j = s.journal.writeAll rs) → Writes s ((replaceOldest s).1.setJournal j)) ∧
      ∀ x ∈ (replaceOldest s).2, x.kind = .hold := by
  unfold replaceOldest
  split
  · rename_i h
    refine ⟨?_, fun j hj => (Writes.refl s).withJournal j hj, by simp⟩
    simp [Journal.room, h, Config.journalSize]
    rw [← h]
  · rename_i oldest rest h
    split
    · rename_i hlt
      exact ⟨by simp [Journal.room, hlt], fun j hj => (Writes.refl s).withJournal j hj, by simp⟩
    · rename_i hge
      refine ⟨?_, fun j hj => ?_, ?_⟩
      · simp only [Journal.room, if_neg hge]
        simp only [State.setJournal_journal, h, List.drop_succ_cons, List.drop_zero]
        rw [journal_setHolds, journal_collectLook]
        rfl
      · have hid : ∀ rd : Read, (rd.skip oldest.number).identity = rd.identity := by
          intro rd
          unfold Read.skip
          split <;> rfl
        have f1 : Writes s (s.setReader (s.reader.map fun rd => rd.skip oldest.number)) :=
          writes_of (reading := by
            simp only [State.setReader_reader, Option.map_map, Function.comp_def, hid])
        have f2 := f1.trans (writes_collectLook _)
        have f3 := f2.trans (writes_mapHolds (fun h => h.lose oldest) (fun x => Hold.lose_records x oldest)
          (fun x => Hold.goesOn_lose x oldest) (fun x => Hold.sound_lose x oldest) _)
        exact f3.withJournal j hj
      · intro x hx
        simp only [List.mem_map] at hx
        obtain ⟨y, _, rfl⟩ := hx
        rfl

theorem Journal.write_eq (j : Journal) (r : Record) :
    j.write r = { records := j.room.records ++ [{ r with number := j.next }], next := j.next + 1 } := rfl

/-- One write: the journal takes the record, everything else follows, and only HOLD records are caused. -/
theorem writeOne_spec (r : Record) (s : State) :
    (writeOne r s).1.journal = s.journal.write r ∧ Writes s (writeOne r s).1 ∧ ∀ x ∈ (writeOne r s).2, x.kind = .hold := by
  obtain ⟨hj, hf, hc⟩ := replaceOldest_spec s
  unfold writeOne
  generalize replaceOldest s = p at hj hf hc
  obtain ⟨s1, partials⟩ := p
  dsimp only at hj hf hc ⊢
  set placed : Record := { r with number := s1.journal.next } with hp
  have hnext : s1.journal.next = s.journal.next := by rw [hj]; rfl
  have hw : ({ records := s1.journal.records ++ [placed], next := s1.journal.next + 1 } : Journal) = s.journal.write r := by
    rw [Journal.write_eq, hp, hnext, hj]
  have f2 : Writes s (s1.setJournal { records := s1.journal.records ++ [placed], next := s1.journal.next + 1 }) :=
    hf _ ⟨[r], hw⟩
  generalize hs2 : s1.setJournal { records := s1.journal.records ++ [placed], next := s1.journal.next + 1 } = s2 at f2
  have j2 : s2.journal = s.journal.write r := by rw [← hs2]; exact hw
  have f3 : Writes s2 (if (placed.kind == .mark && placed.code == 1) = true then s2 else announce placed s2) := by
    split
    · exact Writes.refl _
    · exact writes_announce _ _
  have j3 : (if (placed.kind == .mark && placed.code == 1) = true then s2 else announce placed s2).journal = s2.journal := by
    split
    · rfl
    · exact journal_announce _ _
  generalize (if (placed.kind == .mark && placed.code == 1) = true then s2 else announce placed s2) = s3 at f3 j3
  have f4 := writes_inAnyOrder (List.range s3.marks.holds.length) s3
  have j4 := journal_inAnyOrder (List.range s3.marks.holds.length) s3
  generalize inAnyOrder (List.range s3.marks.holds.length) s3 = q at f4 j4
  obtain ⟨order, s4⟩ := q
  dsimp only at f4 j4 ⊢
  refine ⟨?_, ?_, ?_⟩
  · rw [journal_offers]
    exact j4.trans (j3.trans j2)
  · exact f2.trans (f3.trans (f4.trans (writes_offers placed order (s4, []))))
  · intro x hx
    simp only [List.mem_append] at hx
    rcases hx with hx | hx
    · exact hc x hx
    · exact offers_caused placed order (s4, []) (by simp) x hx

theorem arrange_mem {α : Type} (n c : Nat) (l : List α) : ∀ x ∈ arrange n c l, x ∈ l := by
  induction n generalizing c l with
  | zero => simp [arrange]
  | succ n ih =>
    intro x hx
    unfold arrange at hx
    split at hx
    · exact hx
    · exact hx
    · rename_i y ys _
      dsimp only at hx
      simp only [List.mem_cons] at hx
      rcases hx with hx | hx
      · subst hx
        have hlt : Config.tie c % (y :: ys).length < (y :: ys).length := Nat.mod_lt _ (by simp)
        rw [List.getD_eq_getElem _ _ hlt]
        exact List.getElem_mem hlt
      · exact List.mem_of_mem_eraseIdx (ih _ _ x hx)

theorem inAnyOrder_mem {α : Type} (l : List α) (s : State) : ∀ x ∈ (inAnyOrder l s).1, x ∈ l := arrange_mem _ _ _

/-- A write and the writes it causes: the journal takes the record first and only HOLD records after it. -/
theorem writeNested_spec (n : Nat) (r : Record) (s : State) :
    Writes s (writeNested n r s) ∧ tookRecord r s (writeNested n r s) := by
  induction n generalizing r s with
  | zero =>
    obtain ⟨hj, hf, _⟩ := writeOne_spec r s
    exact ⟨hf, [], hj, by simp⟩
  | succ n ih =>
    obtain ⟨hj, hf, hc⟩ := writeOne_spec r s
    unfold writeNested
    generalize writeOne r s = p at hj hf hc
    obtain ⟨s1, caused⟩ := p
    dsimp only at hj hf hc ⊢
    have f2 := writes_inAnyOrder caused s1
    have j2 := journal_inAnyOrder caused s1
    have m2 := inAnyOrder_mem caused s1
    generalize inAnyOrder caused s1 = q at f2 j2 m2
    obtain ⟨order, s2⟩ := q
    dsimp only at f2 j2 m2 ⊢
    have key : ∀ (l : List Record) (u : State), (∀ x ∈ l, x.kind = .hold) →
        Writes u (l.foldl (fun acc c => writeNested n c acc) u) ∧
          ∃ rs, (l.foldl (fun acc c => writeNested n c acc) u).journal = u.journal.writeAll rs ∧ ∀ x ∈ rs, x.kind = .hold := by
      intro l
      induction l with
      | nil => intro u _; exact ⟨Writes.refl u, [], rfl, by simp⟩
      | cons y ys iy =>
        intro u hu
        obtain ⟨fy, cy, ey, ky⟩ := ih y u
        obtain ⟨fr, rs, er, kr⟩ := iy (writeNested n y u) (fun x hx => hu x (List.mem_cons_of_mem _ hx))
        refine ⟨fy.trans fr, (y :: cy) ++ rs, ?_, ?_⟩
        · rw [List.foldl_cons, er, ey, Journal.writeAll_append]
        · intro x hx
          simp only [List.cons_append, List.mem_cons, List.mem_append] at hx
          rcases hx with hx | hx | hx
          · exact hx ▸ hu y (List.mem_cons_self ..)
          · exact ky x hx
          · exact kr x hx
    obtain ⟨fr, rs, er, kr⟩ := key order s2 (fun x hx => hc x (m2 x hx))
    refine ⟨hf.trans (f2.trans fr), rs, ?_, kr⟩
    rw [er, j2, hj]
    rfl

/-- Handing a record to the journal, all that it can do. -/
theorem writeRecord_writes (r : Record) (s : State) : Writes s (writeRecord r s) := (writeNested_spec 9 r s).1

theorem writeRecord_took (r : Record) (s : State) : tookRecord r s (writeRecord r s) := (writeNested_spec 9 r s).2

end Sys2Proof.Machine
end

