-- ==== Sys2Proof/Laws/Deliveries.lean ====
section
/-! SUPPORT. What raising marks, deciding checks and delivering records to points and check entries can do to the state: each is a `Follows`
(Laws/Consequences.lean). -/

namespace Sys2Proof.Machine

theorem follows_writeRecord (r : Record) (s : State) : Follows s (writeRecord r s) := (writeRecord_writes r s).follows

/-- A step that touches only what `Follows` leaves open, and no journal record, no latch, no slot and no reader. -/
theorem follows_of {s t : State} (clock : t.clock = s.clock := by rfl) (port : t.port = s.port := by rfl)
    (agree : t.agree = s.agree := by rfl) (input : t.input = s.input := by rfl) (dials : t.dials = s.dials := by rfl)
    (config : t.config = s.config := by rfl) (settings : t.settings = s.settings := by rfl)
    (pins : t.pins = s.pins := by rfl) (pending : t.pending = s.pending := by rfl) (query : t.query = s.query := by rfl)
    (line : t.line = s.line := by rfl) (news : t.news = s.news := by rfl) (reader : t.reader = s.reader := by rfl)
    (journal : t.journal = s.journal := by rfl)
    (definitions : ∀ p : PointNo, t.points[p].defn = s.points[p].defn := by intro _; rfl)
    (holding : ∃ kept made, t.marks.holds = kept ++ made ∧ List.Forall₂ Hold.goesOn s.marks.holds kept := by
      exact ⟨_, [], (List.append_nil _).symm, goesOn_refl _⟩)
    (holds : holdsFit s → holdsFit t := by exact id) (watches : t.watch.length ≤ s.watch.length := by exact le_refl _)
    (marks : marksFit s → marksFit t := by exact id) (entries : entriesSound s → entriesSound t := by exact id) :
    Follows s t :=
  { clock := clock, port := port, agree := agree, input := input, dials := dials, config := config
    settings := settings, pins := pins, pending := pending, answers := by rw [query], restartPending := by rw [query]
    enables := by rw [query], cause := by rw [query], running := by rw [line], activity := by rw [line]
    freeAt := by rw [line], quietFrom := by rw [line], fairness := by rw [line], trouble := by rw [line], counters := by rw [line]
    beaconSlot := by rw [line], heard := by rw [news], silence := by rw [news], sequences := by rw [news]
    gapsHeard := by rw [news], target := by rw [news], definitions := definitions, reading := by rw [reader], holding := holding
    journal := ⟨[], by rw [journal]; rfl⟩
    latched := by unfold keepsLatches; rw [query]; exact keepsLatches_refl s
    queue := by unfold queueFits; rw [news]; exact id
    holds := holds, watches := watches, marks := marks, entries := entries
    lines := lineSound_of config clock line (by rw [news]) }

theorem follows_latchIf (a : AlarmSource) (c : Bool) (s : State) : Follows s (latchIf a c s) :=
  (writes_latchIf a c s).follows

theorem follows_latch (a : AlarmSource) (s : State) : Follows s (latch a s) := (writes_latch a s).follows

theorem follows_inAnyOrder {α : Type} (l : List α) (s : State) : Follows s (inAnyOrder l s).2 :=
  (writes_inAnyOrder l s).follows

theorem follows_newsLook (s : State) : Follows s (newsLook s) := (writes_newsLook s).follows

theorem follows_arbitrate (s : State) : Follows s (arbitrate s) := (writes_arbitrate s).follows

theorem follows_relatch (s : State) : Follows s (relatch s) := (writes_relatch s).follows

/-- A fold in a free order, then over the list it gives. -/
theorem follows_ordered {α : Type} (f : State → α → State) (h : ∀ s x, Follows s (f s x)) (l : List α) (s : State) :
    Follows s ((inAnyOrder l s).1.foldl f (inAnyOrder l s).2) :=
  (follows_inAnyOrder l s).trans (follows_fold f h _ _)

/-! ### Tables -/

theorem follows_setEntry (e : EntryNo) (c : Option CheckEntry) (s : State)
    (h : entriesSound s → ∀ x, c = some x → x.sound) : Follows s (setEntry e c s) :=
  follows_of (entries := by
    intro hs f x hx
    by_cases hf : e = f
    · subst hf
      have : (setEntry e c s).checks[e] = c := getElem_setAt_self ..
      rw [this] at hx
      exact h hs x hx
    · have : (setEntry e c s).checks[f] = s.checks[f] := getElem_setAt_ne _ _ _ _ hf
      rw [this] at hx
      exact hs f x hx)

theorem follows_setPoint (p : PointNo) (x : Point) (s : State) (h : x.defn = s.points[p].defn) :
    Follows s (setPoint p x s) :=
  Follows.trans (t := s.setPoints (setAt s.points p x))
    (follows_of (definitions := by
      intro q
      change (setAt s.points p x)[q].defn = _
      by_cases hq : p = q
      · subst hq; rw [getElem_setAt_self]; exact h
      · rw [getElem_setAt_ne _ _ _ _ hq]))
    (follows_latchIf _ _ _)

theorem setPoint_points (p : PointNo) (x : Point) (s : State) : (setPoint p x s).points = setAt s.points p x := by
  simp only [setPoint, latchIf, latch]
  split <;> rfl

theorem setPoint_self (p : PointNo) (x : Point) (s : State) : (setPoint p x s).points[p] = x := by
  rw [setPoint_points]
  exact getElem_setAt_self ..

/-! ### Marks (R162–R167) -/

theorem follows_placeMark (s : State) : Follows s (placeMark s) := by
  unfold placeMark
  split
  · rename_i m rest hv hm
    refine
      { Follows.refl s with
        beaconSlot := slot_placeTelegram_ne 1 0 _ s (by decide)
        lines := lineSound_fill 1 _ hv rfl rfl rfl rfl rfl rfl rfl rfl ?_
        queue := id, holds := id, marks := id, entries := id }
    intro h n
    have : (placeTelegram 1 { dest := everyStation, payload := .mark m } s).line.slots[(2 : TelegramClass)] =
        s.line.slots[(2 : TelegramClass)] := slot_placeTelegram_ne 1 2 _ s (by decide)
    rw [this]
    exact h.2.2.2.2.2.2.2 n
  · exact Follows.refl s

theorem follows_broadcast (m : MarkInfo) (s : State) : Follows s (broadcast m s) := by
  unfold broadcast
  split
  · rename_i h
    refine Follows.trans (follows_of (marks := ?_)) (follows_placeMark _)
    intro _
    simp only [marksFit, State.setMarks_marks, List.length_append, List.length_singleton]
    omega
  · exact follows_of

/-- A new hold at the end of a table with room. -/
theorem follows_addHold (h : Hold) (s : State) (hr : h.records = []) (hs : h.sound)
    (hi : (holdIndex s h.mark.originator h.mark.number).isSome = false)
    (hl : s.marks.holds.length < Config.holdTableSize) : Follows s (setHolds (s.marks.holds ++ [h]) s) :=
  Follows.trans (t := s.setMarks { s.marks with holds := s.marks.holds ++ [h] })
    (follows_of (holding := ⟨_, [h], rfl, goesOn_refl _⟩) (holds := by
      intro ⟨_, b, c, d⟩
      refine ⟨?_, ?_, ?_, ?_⟩
      · simp only [State.setMarks_marks, List.length_append, List.length_singleton]
        omega
      · simp only [State.setMarks_marks, storeCount, List.map_append, List.sum_append, List.map_cons, hr, List.map_nil] at *
        simpa using b
      · intro x hx
        simp only [State.setMarks_marks, List.mem_append, List.mem_singleton] at hx
        rcases hx with hx | rfl
        · exact c x hx
        · exact hs
      · simp only [State.setMarks_marks, List.map_append, List.map_cons, List.map_nil]
        refine List.nodup_append.mpr ⟨d, by simp, ?_⟩
        intro x hx y hy
        simp only [List.mem_singleton] at hy
        rw [hy]
        obtain ⟨z, hz, rfl⟩ := List.mem_map.mp hx
        intro e
        have h1 : z.named h.mark.originator h.mark.number = true := by
          simp only [Hold.identity, Prod.mk.injEq] at e
          simp [Hold.named, e.1, e.2]
        simp only [holdIndex, Option.isSome_eq_false_iff, Option.isNone_iff_eq_none, List.findIdx?_eq_none_iff] at hi
        exact absurd h1 (by simp [hi z hz])))
    (follows_latchIf _ _ _)

theorem newHold_sound (m : MarkInfo) (s : State) : (newHold m s).sound := by
  refine ⟨rfl, rfl, ?_⟩
  simp [newHold]

theorem follows_makeHold (code : Nat) (m : MarkInfo) (s : State)
    (hi : ¬ (holdIndex s m.originator m.number).isSome = true) (hl : s.marks.holds.length < Config.holdTableSize) :
    Follows s (makeHold code m s) := by
  have h1 : Follows s (setHolds (s.marks.holds ++
      [if decide (Config.storeSize ≤ storeCount s.marks.holds) then (newHold m s).truncate else newHold m s]) s) :=
    follows_addHold _ s (by split <;> rfl)
      (by split; exact Hold.sound_truncate _ (newHold_sound m s); exact newHold_sound m s)
      (by
        have : (newHold m s).truncate.mark = m ∧ (newHold m s).mark = m := ⟨rfl, rfl⟩
        split <;> simpa [this] using hi) hl
  unfold makeHold
  dsimp only
  generalize setHolds (s.marks.holds ++
      [if decide (Config.storeSize ≤ storeCount s.marks.holds) then (newHold m s).truncate else newHold m s]) s = u at h1 ⊢
  have h2 := h1.trans (follows_writeRecord (markDraft code m u) u)
  generalize writeRecord (markDraft code m u) u = v at h2 ⊢
  split
  · exact h2.trans (follows_writeRecord _ _)
  · exact h2

theorem follows_applyRaised (m : MarkInfo) (s : State) : Follows s (applyRaised m s) := by
  unfold applyRaised
  split
  · exact follows_writeRecord _ s
  · rename_i hi
    split
    · rename_i hl
      exact follows_makeHold 0 m s hi hl
    · exact (follows_writeRecord _ s).trans (follows_writeRecord _ _)

theorem follows_applyHeard (m : MarkInfo) (s : State) : Follows s (applyHeard m s) := by
  unfold applyHeard
  split
  · exact Follows.refl s
  · rename_i hi
    split
    · rename_i hl
      exact follows_makeHold 1 m s hi hl
    · exact follows_writeRecord _ s

theorem follows_raiseMark (reason subject : Byte) (time : LineTime) (pre post : Nat) (s : State) :
    Follows s (raiseMark reason subject time pre post s) := by
  unfold raiseMark
  dsimp only
  exact Follows.trans (follows_of (t := s.setMarks { s.marks with own := nextMarkNumber s 4 (s.marks.own + 1) }))
    ((follows_broadcast _ _).trans (follows_applyRaised _ _))

theorem Hold.sound_closeFallsDue (h : Hold) (a : h.sound) : h.closeFallsDue.sound := by
  unfold Hold.closeFallsDue
  split
  · exact Hold.sound_close h a
  · rename_i hs
    obtain ⟨b, c, d⟩ := a
    rw [hs] at d
    refine ⟨b, c, ?_⟩
    simp only [hs]
    exact d
  · exact a

/-! ### The check table (R116, R149–R157) -/

theorem dropReference_length (st : Station) (i : InputNo) (w : List WatchEntry) :
    (dropReference st i w).length ≤ w.length := List.length_filterMap_le ..

theorem follows_giveBack (c : CheckEntry) (s : State) : Follows s (giveBack c s) := by
  unfold giveBack
  split
  · split
    · exact Follows.refl s
    · exact follows_of (watches := dropReference_length _ _ _)
  · exact Follows.refl s

theorem CheckEntry.sound_opening (c : CheckEntry) (h : c.sound) : c.opening.sound := by
  obtain ⟨a, b, d, e, f, g, _, _⟩ := h
  exact ⟨a, b, d, e, f, g, by simp [CheckEntry.opening], by simp [CheckEntry.opening]⟩

theorem CheckEntry.sound_see (c : CheckEntry) (v : SubjectView) (h : c.sound) : (c.see v).sound := h

theorem CheckEntry.sound_last (c : CheckEntry) (l : Option LastCheck) (h : c.sound) : ({ c with last := l }).sound := h

theorem CheckEntry.sound_match (c : CheckEntry) (d : Date) (h : c.sound) (ho : c.openAt ≤ d.time) (hc : d.time ≤ c.closeAt) :
    ({ c with phase := .matched, held := some d, deadline := some (d.time + c.settle * 1000000) } : CheckEntry).sound := by
  obtain ⟨a, b, d', e, f, g, _, _⟩ := h
  refine ⟨a, b, d', e, f, g, ?_, rfl⟩
  intro x hx
  cases hx
  exact ⟨ho, hc⟩

theorem CheckEntry.sound_consider (c : CheckEntry) (d : Date) (h : c.sound) : (c.consider d).sound := by
  unfold CheckEntry.consider
  split
  · rename_i hw
    simp only [Bool.and_eq_true, decide_eq_true_eq] at hw
    have both : ∀ b : Bool, (if b = true then
        ({ c with phase := .matched, held := some d, deadline := some (d.time + c.settle * 1000000) } : CheckEntry)
        else c).sound := by
      intro b
      cases b
      · exact h
      · exact CheckEntry.sound_match c d h hw.1.2 hw.2
    exact both _
  · exact h

theorem CheckEntry.sound_afterDecision (c : CheckEntry) (h : c.sound) : c.afterDecision.sound := by
  obtain ⟨a, b, d, e, f, g, i, _⟩ := h
  unfold CheckEntry.afterDecision
  dsimp only
  split
  · exact ⟨a, b, d, e, f, g, i, by simp⟩
  · split
    · exact ⟨a, b, d, e, f, g, i, by simp⟩
    · have up : ∀ x y z k : Nat, x ≤ y + z → x + k ≤ y + k + z := by intros; omega
      have eq : ∀ x y z k : Nat, x = y + z → x + k = y + k + z := by intros; omega
      exact ⟨up _ _ _ _ a, Nat.add_le_add_right b _, eq _ _ _ _ d, e, f, g, by simp, by simp⟩

theorem follows_decideEntry (e : EntryNo) (c : CheckEntry) (s : State) (hp : c.phase ≠ .done)
    (hc : entriesSound s → c.sound) : Follows s (decideEntry e c s) := by
  unfold decideEntry
  dsimp only
  generalize hl : ({ c with last := some { outcome := c.outcome, uncertain := (checkDraft e c s).uncertain, tenths := c.tenths } } : CheckEntry) = c1
  have hc1 : c.sound → c1.sound := by
    intro h
    rw [← hl]
    exact h
  have hp1 : c1.phase ≠ .done := by rw [← hl]; exact hp
  have f1 : Follows s (setEntry e (some c1) s) :=
    follows_setEntry e _ s (by intro h x hx; cases hx; exact hc1 (hc h))
  have f2 := f1.trans (follows_writeRecord (checkDraft e c s) _)
  have f3 := f2.trans (follows_latchIf .check (c.outcome == .missed) _)
  generalize latchIf .check (c.outcome == .missed) (writeRecord (checkDraft e c s) (setEntry e (some c1) s)) = s3 at f3 ⊢
  have f4 : Follows s (if (c.outcome == .missed && c.markOnMiss) = true then
      raiseMark reasonCheck (byteOf e.val) c.closeAt 600 60 s3 else s3) := by
    split
    · exact f3.trans (follows_raiseMark ..)
    · exact f3
  generalize (if (c.outcome == .missed && c.markOnMiss) = true then
      raiseMark reasonCheck (byteOf e.val) c.closeAt 600 60 s3 else s3) = s4 at f4 ⊢
  have f5 : Follows s (setEntry e (some c1.afterDecision) s4) := by
    refine
      { (f4.trans (follows_of : Follows s4 s4)) with
        entries := ?_, queue := f4.queue, holds := f4.holds, marks := f4.marks, lines := ?_ }
    · intro h f x hx
      by_cases hf : e = f
      · subst hf
        have : (setEntry e (some c1.afterDecision) s4).checks[e] = some c1.afterDecision := getElem_setAt_self ..
        rw [this] at hx
        cases hx
        exact CheckEntry.sound_afterDecision c1 (hc1 (hc h))
      · have : (setEntry e (some c1.afterDecision) s4).checks[f] = s4.checks[f] := getElem_setAt_ne _ _ _ _ hf
        rw [this] at hx
        exact f4.entries h f x hx
    · exact fun h => lineSound_of rfl rfl rfl rfl (f4.lines h)
  split
  · exact f5.trans (follows_giveBack _ _)
  · exact f5

theorem follows_runEntry (n : Nat) (e : EntryNo) (s : State) : Follows s (runEntry n e s) := by
  induction n generalizing s with
  | zero => exact Follows.refl s
  | succ n ih =>
    unfold runEntry
    split
    · exact Follows.refl s
    · rename_i c hc
      split
      · split
        · exact Follows.trans
            (follows_setEntry e _ s (by intro h x hx; cases hx; exact CheckEntry.sound_opening c (h e c hc))) (ih _)
        · rename_i hp
          exact Follows.trans (follows_decideEntry e c s (by rw [hp]; decide) (fun h => h e c hc)) (ih _)
        · rename_i hp
          exact Follows.trans (follows_decideEntry e c s (by rw [hp]; decide) (fun h => h e c hc)) (ih _)
        · exact Follows.refl s
      · exact Follows.refl s

theorem follows_settleEntry (e : EntryNo) (s : State) : Follows s (settleEntry e s) := by
  unfold settleEntry
  split
  · exact Follows.refl s
  · exact follows_runEntry _ e s

/-- An entry that has seen and perhaps matched a record is put back and settled. -/
theorem follows_putSettled (e : EntryNo) (c x : CheckEntry) (b : Bool) (s : State) (hc : s.checks[e] = some c)
    (hx : c.sound → x.sound) :
    Follows s (if b = true then settleEntry e (setEntry e (some x) s) else setEntry e (some x) s) := by
  have f1 : Follows s (setEntry e (some x) s) :=
    follows_setEntry e _ s (by intro h y hy; cases hy; exact hx (h e c hc))
  split
  · exact f1.trans (follows_settleEntry e _)
  · exact f1

theorem CheckEntry.sound_seen (c : CheckEntry) (v : SubjectView) (b : Bool) (d : Date) (h : c.sound) :
    (if b = true then (c.see v).consider d else c.see v).sound := by
  split
  · exact CheckEntry.sound_consider _ _ (CheckEntry.sound_see c _ h)
  · exact CheckEntry.sound_see c _ h

theorem follows_deliverInputToCheck (st : Station) (i : InputNo) (r : Record) (e : EntryNo) (s : State) :
    Follows s (deliverInputToCheck st i r e s) := by
  unfold deliverInputToCheck
  split
  · rename_i c view hc _
    split
    · split
      · exact follows_putSettled e c _ _ s hc (CheckEntry.sound_seen c _ _ _)
      · exact Follows.refl s
    · exact Follows.refl s
  · exact Follows.refl s

theorem follows_reportToCheck (st : Station) (i : InputNo) (e : EntryNo) (s : State) :
    Follows s (reportToCheck st i e s) := by
  unfold reportToCheck
  split
  · rename_i c hc
    split
    · split
      · exact follows_setEntry e _ s (by intro h y hy; cases hy; exact CheckEntry.sound_see c _ (h e c hc))
      · exact Follows.refl s
    · exact Follows.refl s
  · exact Follows.refl s

theorem follows_deliverPointToCheck (p : PointNo) (o : PointOutcome) (x : PointState) (d : Date) (e : EntryNo)
    (s : State) : Follows s (deliverPointToCheck p o x d e s) := by
  unfold deliverPointToCheck
  split
  · rename_i c hc
    split
    · split
      · exact follows_putSettled e c _ _ s hc (CheckEntry.sound_seen c _ _ _)
      · exact Follows.refl s
    · exact Follows.refl s
  · exact Follows.refl s

theorem follows_deliverPoint (p : PointNo) (o : PointOutcome) (x : PointState) (d : Date) (s : State) :
    Follows s (deliverPoint p o x d s) :=
  follows_ordered (fun acc e => deliverPointToCheck p o x d e acc)
    (fun s e => follows_deliverPointToCheck p o x d e s) (entriesOfPoint s p) s

/-! ### Points (R121–R139) -/

/-- A point's record replaced by one of the same definition, and what follows. -/
theorem follows_putPoint {p : PointNo} {x : Point} {s u : State} (h : x.defn = s.points[p].defn)
    (k : Follows (setPoint p x s) u) : Follows s u := (follows_setPoint p x s h).trans k

theorem follows_enterState (p : PointNo) (x : PointState) (s : State) : Follows s (enterState p x s) :=
  follows_setPoint p _ s (by rfl)

theorem follows_writeOutcome (p : PointNo) (o : PointOutcome) (d : Date) (v : Option Nat) (u : Bool) (s : State) :
    Follows s (writeOutcome p o d v u s) := by
  unfold writeOutcome
  dsimp only
  have f1 := (follows_setPoint p { s.points[p] with lastOutcome := some (o, d) } s rfl).trans
    ((follows_writeRecord (draft .point d p.val (pointCode o) (v.map Int.ofNat) u) _).trans
      (follows_deliverPoint p o s.points[p].state d _))
  split
  · split
    · exact f1.trans (follows_raiseMark ..)
    · exact f1
  · exact f1

theorem follows_countMovement (p : PointNo) (d : Date) (s : State) : Follows s (countMovement p d s) := by
  unfold countMovement
  dsimp only
  split
  · exact follows_setPoint p _ s (by rfl)
  · split
    · split
      · exact follows_setPoint p _ s (by rfl)
      · refine follows_putPoint ?_ (follows_writeRecord _ _)
        rfl
    · exact follows_setPoint p _ s (by rfl)

theorem follows_movementEnds (p : PointNo) (toward : Side) (call loss found : Date) (s : State) :
    Follows s (movementEnds p toward call loss found s) := by
  have f0 : Follows s (setPoint p
      { s.points[p] with
        state := .detected toward
        lastStroke := some (durationMs found loss)
        lastOperate := some (durationMs found call) } s) := follows_setPoint p _ s rfl
  unfold movementEnds
  dsimp only
  generalize setPoint p
      { s.points[p] with
        state := .detected toward
        lastStroke := some (durationMs found loss)
        lastOperate := some (durationMs found call) } s = u at f0 ⊢
  generalize (doubtfulDate call || doubtfulDate loss || doubtfulDate found || outOfOrder found loss ||
    outOfOrder found call) = doubt
  generalize (if (s.points[p].trend toward).slow (durationMs found loss) = true then PointOutcome.movedSlow
    else PointOutcome.moved) = outcome
  have f1 := f0.trans (follows_writeOutcome p outcome found (some (durationMs found loss)) doubt u)
  generalize writeOutcome p outcome found (some (durationMs found loss)) doubt u = v at f1 ⊢
  refine f1.trans (Follows.trans ?_ (follows_countMovement p found _))
  split
  · exact Follows.refl _
  · refine follows_setPoint p _ _ ?_
    cases toward <;> rfl

theorem follows_lateMovementEnds (p : PointNo) (side : Side) (call loss found : Date) (s : State) :
    Follows s (lateMovementEnds p side call loss found s) := by
  unfold lateMovementEnds
  dsimp only
  refine follows_putPoint ?_ (Follows.trans (follows_writeOutcome p _ found _ _ _) (follows_countMovement p found _))
  rfl

theorem follows_movementReturns (p : PointNo) (side : Side) (loss found : Date) (s : State) :
    Follows s (movementReturns p side loss found s) := by
  unfold movementReturns
  dsimp only
  exact Follows.trans (follows_enterState ..) (Follows.trans (follows_writeOutcome ..) (follows_countMovement ..))

theorem follows_startExpires (p : PointNo) (toward : Side) (call : Date) (d : LineTime) (s : State) :
    Follows s (startExpires p toward call d s) := by
  unfold startExpires
  dsimp only
  refine follows_putPoint ?_ (follows_writeOutcome ..)
  rfl

theorem follows_strokeExpires (p : PointNo) (toward : Side) (call loss : Date) (d : LineTime) (s : State) :
    Follows s (strokeExpires p toward call loss d s) := by
  unfold strokeExpires
  dsimp only
  exact Follows.trans (follows_enterState ..) (follows_writeOutcome ..)

theorem follows_expirePoint (p : PointNo) (s : State) : Follows s (expirePoint p s) := by
  unfold expirePoint
  split
  · split
    · exact follows_startExpires ..
    · exact Follows.refl s
  · split
    · exact follows_strokeExpires ..
    · exact Follows.refl s
  · exact Follows.refl s

theorem follows_becomeCalled (p : PointNo) (toward : Side) (call : Date) (s : State) :
    Follows s (becomeCalled p toward call s) := (follows_enterState ..).trans (follows_expirePoint ..)

theorem follows_becomeMoving (p : PointNo) (toward : Side) (call loss : Date) (s : State) :
    Follows s (becomeMoving p toward call loss s) := (follows_enterState ..).trans (follows_expirePoint ..)

theorem follows_becomeFaulty (p : PointNo) (x : PointState) (o : PointOutcome) (d : Date) (s : State) :
    Follows s (becomeFaulty p x o d s) := (follows_enterState ..).trans (follows_writeOutcome ..)

theorem follows_becomeRestored (p : PointNo) (side : Side) (d : Date) (s : State) :
    Follows s (becomeRestored p side d s) := (follows_enterState ..).trans (follows_writeOutcome ..)

theorem follows_changeDetected (p : PointNo) (side : Side) (ref : Ref) (l : Level) (d : Date) (s : State) :
    Follows s (changeDetected p side ref l d s) := by
  unfold changeDetected
  dsimp only
  split
  · exact follows_becomeCalled ..
  · split
    · split
      · exact follows_becomeMoving ..
      · exact follows_becomeFaulty ..
    · split
      · exact follows_becomeFaulty ..
      · exact Follows.refl s

theorem follows_changeCalled (p : PointNo) (toward : Side) (call : Date) (ref : Ref) (l : Level) (d : Date) (s : State) :
    Follows s (changeCalled p toward call ref l d s) := by
  unfold changeCalled
  split
  · exact follows_enterState ..
  · split
    · exact follows_becomeMoving ..
    · split
      · exact follows_becomeFaulty ..
      · exact Follows.refl s

theorem follows_changeMoving (p : PointNo) (toward : Side) (call loss : Date) (ref : Ref) (l : Level) (d : Date)
    (s : State) : Follows s (changeMoving p toward call loss ref l d s) := by
  unfold changeMoving
  split
  · exact follows_movementEnds ..
  · split
    · exact follows_movementReturns ..
    · exact Follows.refl s

theorem follows_changeOvertime (p : PointNo) (toward : Side) (call loss : Date) (ref : Ref) (l : Level) (d : Date)
    (s : State) : Follows s (changeOvertime p toward call loss ref l d s) := by
  unfold changeOvertime
  split
  · exact follows_lateMovementEnds ..
  · split
    · exact follows_lateMovementEnds ..
    · exact Follows.refl s

theorem follows_changeLost (p : PointNo) (ref : Ref) (l : Level) (d : Date) (s : State) :
    Follows s (changeLost p ref l d s) := by
  unfold changeLost
  split
  · exact follows_becomeRestored ..
  · split
    · exact follows_becomeRestored ..
    · exact Follows.refl s

theorem follows_changeBoth (p : PointNo) (ref : Ref) (l : Level) (d : Date) (s : State) :
    Follows s (changeBoth p ref l d s) := by
  unfold changeBoth
  split
  · exact follows_becomeRestored ..
  · split
    · exact follows_becomeRestored ..
    · exact Follows.refl s

theorem follows_changeLevel (p : PointNo) (ref : Ref) (l : Level) (d : Date) (s : State) :
    Follows s (changeLevel p ref l d s) := by
  have f1 : Follows s (if ref.isCall = true then setPoint p { s.points[p] with startFailed := false } s else s) := by
    split
    · exact follows_setPoint p _ s rfl
    · exact Follows.refl s
  unfold changeLevel
  dsimp only
  generalize (if ref.isCall = true then setPoint p { s.points[p] with startFailed := false } s else s) = u at f1 ⊢
  refine f1.trans ?_
  split
  · exact follows_changeDetected ..
  · exact follows_changeCalled ..
  · exact follows_changeMoving ..
  · exact follows_changeOvertime ..
  · exact follows_changeLost ..
  · exact follows_changeBoth ..
  · exact Follows.refl _

theorem follows_setView (p : PointNo) (ref : Ref) (c : Condition) (s : State) : Follows s (setView p ref c s) :=
  follows_setPoint p _ s (by rfl)

theorem follows_takeKnown (p : PointNo) (l : Level) (d : Date) (s : State) (ref : Ref) :
    Follows s (takeKnown p l d s ref) := by
  unfold takeKnown
  dsimp only
  split
  · exact follows_setView ..
  · exact (follows_setView ..).trans (follows_changeLevel ..)

theorem follows_becomeUnknown (p : PointNo) (d : Date) (s : State) : Follows s (becomeUnknown p d s) := by
  unfold becomeUnknown
  dsimp only
  refine follows_putPoint ?_ (follows_writeOutcome ..)
  rfl

theorem follows_becomeKnown (p : PointNo) (d : Date) (s : State) : Follows s (becomeKnown p d s) := by
  unfold becomeKnown
  dsimp only
  exact (follows_enterState ..).trans (follows_writeOutcome ..)

theorem follows_loseSight (p : PointNo) (refs : List Ref) (c : Condition) (d : Date) (s : State) :
    Follows s (loseSight p refs c d s) := by
  unfold loseSight
  dsimp only
  have f1 := follows_fold (fun acc r => setView p r c acc) (fun s r => follows_setView p r c s) refs s
  split
  · exact f1
  · exact f1.trans (follows_becomeUnknown ..)

theorem follows_setViews (p : PointNo) (c : Condition) (refs : List Ref) (s : State) :
    Follows s (refs.foldl (fun acc ref => setView p ref c acc) s) :=
  follows_fold (fun acc ref => setView p ref c acc) (fun s ref => follows_setView p ref c s) refs s

theorem follows_deliverToPoint (st : Station) (i : InputNo) (r : Record) (p : PointNo) (s : State) :
    Follows s (deliverToPoint st i r p s) := by
  unfold deliverToPoint
  split
  · rename_i d c _ _
    dsimp only
    cases c with
    | known level date =>
      dsimp only
      split
      · have f1 := follows_setViews p (.known level date) (d.naming st i) s
        generalize (d.naming st i).foldl (fun acc ref => setView p ref (.known level date) acc) s = u at f1 ⊢
        split
        · exact f1.trans (follows_becomeKnown p date u)
        · exact f1
      · exact follows_fold (takeKnown p level date) (fun s ref => follows_takeKnown p level date s ref) _ s
    | neverHeard => exact follows_loseSight ..
    | uncertain => exact follows_loseSight ..
    | chattering => exact follows_loseSight ..
    | off => exact follows_loseSight ..
  · exact Follows.refl s

theorem follows_reportToPoint (st : Station) (i : InputNo) (p : PointNo) (s : State) :
    Follows s (reportToPoint st i p s) := by
  unfold reportToPoint
  split
  · exact follows_loseSight ..
  · exact Follows.refl s

theorem follows_deliverInput (st : Station) (i : InputNo) (r : Record) (s : State) :
    Follows s (deliverInput st i r s) := by
  unfold deliverInput
  refine follows_ordered _ ?_ (receivers s st i) s
  intro u x
  cases x with
  | point p => exact follows_deliverToPoint st i r p u
  | entry e => exact follows_deliverInputToCheck st i r e u

theorem follows_reportInput (st : Station) (i : InputNo) (s : State) : Follows s (reportInput st i s) := by
  unfold reportInput
  refine follows_ordered _ ?_ (receivers s st i) s
  intro u x
  cases x with
  | point p => exact follows_reportToPoint st i p u
  | entry e => exact follows_reportToCheck st i e u

/-! ### Inputs, gaps and heard records (R76, R111, R114) -/

theorem follows_writeInput (i : InputNo) (r : Record) (s : State) : Follows s (writeInput i r s) :=
  (follows_writeRecord r s).trans (follows_deliverInput ..)

theorem follows_makeUncertain (stations : Station → Bool) (s : State) : Follows s (makeUncertain stations s) := by
  unfold makeUncertain
  dsimp only
  exact Follows.trans (follows_of (watches := by simp))
    (follows_ordered (fun acc (w : WatchEntry) => reportInput w.station w.input acc)
      (fun s w => follows_reportInput w.station w.input s) _ _)

theorem follows_hearRecord (src : Station) (s : State) (r : Record) : Follows s (hearRecord src s r) := by
  unfold hearRecord
  split
  · dsimp only
    split
    · exact Follows.trans (follows_of (watches := by simp [setCondition])) (follows_deliverInput ..)
    · exact Follows.refl s
  · exact Follows.refl s

/-! ### Jumps of line time, the lines apart (R18) -/

theorem follows_writeClock (code : Nat) (v : Int) (s : State) : Follows s (writeClock code v s) := follows_writeRecord _ s

end Sys2Proof.Machine
end

