-- ==== Sys2Proof/Laws/Relations.lean ====
section
/-! SUPPORT. What the deliveries of a record, the reports of a gap and the writing of a channel's record do, as the relations of
Safety.lean say it: each reaches every point and active check entry that names the input or the point, once, and no other. -/

namespace Sys2Proof.Machine

theorem arrange_perm {α : Type} (n c : Nat) (l : List α) : (arrange n c l).Perm l := by
  induction n generalizing c l with
  | zero => exact .refl l
  | succ n ih =>
    match l with
    | [] => exact .refl _
    | [x] => exact .refl _
    | x :: y :: rest =>
      simp only [arrange]
      have hi : Config.tie c % (x :: y :: rest).length < (x :: y :: rest).length := Nat.mod_lt _ (by simp)
      generalize Config.tie c % (x :: y :: rest).length = i at hi ⊢
      rw [List.getD_eq_getElem _ _ hi]
      exact ((ih (c + 1) _).cons _).trans (List.getElem_cons_eraseIdx_perm hi)

/-- A free order is an order of the same things, and only the counter of free values moves. -/
theorem inAnyOrder_spec {α : Type} (l : List α) (s : State) :
    (inAnyOrder l s).1.Perm l ∧ ∃ n, (inAnyOrder l s).2 = s.setChoices n := by
  refine ⟨arrange_perm _ _ _, ?_⟩
  unfold inAnyOrder
  split
  · exact ⟨s.choices, rfl⟩
  · exact ⟨_, rfl⟩

theorem naming_ne_nil (d : PointDef) (station : Station) (input : InputNo) :
    d.naming station input ≠ [] ↔ ∃ ref, d.refs.at ref = (station, input) := by
  simp only [PointDef.naming, ne_eq, List.filter_eq_nil_iff, not_forall, Decidable.not_not]
  constructor
  · rintro ⟨ref, -, h⟩
    exact ⟨ref, by simpa using h⟩
  · rintro ⟨ref, h⟩
    exact ⟨ref, by cases ref <;> decide, by simpa using h⟩

theorem point_mem_receivers (s : State) (station : Station) (input : InputNo) (p : PointNo) :
    .point p ∈ receivers s station input ↔ ∃ d ref, s.points[p].defn = some d ∧ d.refs.at ref = (station, input) := by
  have h : .point p ∈ receivers s station input ↔ p ∈ pointsOfInput s station input := by simp [receivers]
  rw [h, pointsOfInput, List.mem_filter]
  cases hd : s.points[p].defn with
  | none => simp
  | some d => simp [← naming_ne_nil]

theorem entry_mem_receivers (s : State) (station : Station) (input : InputNo) (e : EntryNo) :
    .entry e ∈ receivers s station input ↔
      ∃ c edge, s.checks[e] = some c ∧ c.phase ≠ .done ∧ c.subject = .input station input edge := by
  have h : .entry e ∈ receivers s station input ↔ e ∈ entriesOfInput s station input := by simp [receivers]
  rw [h, entriesOfInput, List.mem_filter]
  cases hc : s.checks[e] with
  | none => simp
  | some c =>
    cases hs : c.subject with
    | point p side => simp [hs]
    | input st i edge =>
      simp only [List.mem_finRange, true_and, CheckEntry.active, Bool.and_eq_true, bne_iff_ne, beq_iff_eq,
        Option.some.injEq, hs]
      constructor
      · rintro ⟨⟨a, rfl⟩, rfl⟩
        exact ⟨c, edge, rfl, a, hs⟩
      · rintro ⟨_, _, rfl, a, b⟩
        rw [hs] at b
        cases b
        exact ⟨⟨a, rfl⟩, rfl⟩

theorem receivers_nodup (s : State) (station : Station) (input : InputNo) : (receivers s station input).Nodup := by
  unfold receivers pointsOfInput entriesOfInput
  refine List.nodup_append.mpr ⟨?_, ?_, ?_⟩
  · exact ((List.nodup_finRange 32).filter _).map fun _ _ h => by cases h; rfl
  · exact ((List.nodup_finRange 256).filter _).map fun _ _ h => by cases h; rfl
  · rintro x hx y hy rfl
    obtain ⟨p, _, rfl⟩ := List.mem_map.mp hx
    obtain ⟨e, _, h⟩ := List.mem_map.mp hy
    exact absurd h nofun

/-- A fold over the receivers of a pair in a free order reaches each of them once. -/
theorem takenByAll_fold (point : PointNo → State → State) (entry : EntryNo → State → State) (station : Station)
    (input : InputNo) (s : State) :
    takenByAll point entry station input s
      ((inAnyOrder (receivers s station input) s).1.foldl (fun u x => match x with
        | .point p => point p u
        | .entry e => entry e u) (inAnyOrder (receivers s station input) s).2) := by
  obtain ⟨hp, n, hn⟩ := inAnyOrder_spec (receivers s station input) s
  refine ⟨_, n, hp.nodup_iff.mpr (receivers_nodup ..), fun p => ?_, fun e => ?_, ?_⟩
  · rw [hp.mem_iff]
    exact point_mem_receivers ..
  · rw [hp.mem_iff]
    exact entry_mem_receivers ..
  · rw [hn] <;> congr 1

theorem deliverInput_spec (station : Station) (input : InputNo) (r : Record) (s : State) :
    deliveredToAll station input r s (deliverInput station input r s) :=
  takenByAll_fold (deliverToPoint station input r) (deliverInputToCheck station input r) station input s

theorem reportInput_spec (station : Station) (input : InputNo) (s : State) :
    reportedToAll station input s (reportInput station input s) :=
  takenByAll_fold (reportToPoint station input) (reportToCheck station input) station input s

theorem mem_entriesOfPoint (s : State) (p : PointNo) (e : EntryNo) :
    e ∈ entriesOfPoint s p ↔ ∃ c side, s.checks[e] = some c ∧ c.phase ≠ .done ∧ c.subject = .point p side := by
  rw [entriesOfPoint, List.mem_filter]
  cases hc : s.checks[e] with
  | none => simp
  | some c =>
    cases hs : c.subject with
    | input st i edge => simp [hs]
    | point q side =>
      simp only [List.mem_finRange, true_and, CheckEntry.active, Bool.and_eq_true, bne_iff_ne, beq_iff_eq,
        Option.some.injEq, hs]
      constructor
      · rintro ⟨a, rfl⟩
        exact ⟨c, side, rfl, a, hs⟩
      · rintro ⟨_, _, rfl, a, b⟩
        rw [hs] at b
        cases b
        exact ⟨a, rfl⟩

theorem deliverPoint_spec (p : PointNo) (outcome : PointOutcome) (entered : PointState) (date : Date) (s : State) :
    deliveredToEntries p outcome entered date s (deliverPoint p outcome entered date s) := by
  obtain ⟨hp, n, hn⟩ := inAnyOrder_spec (entriesOfPoint s p) s
  refine ⟨_, n, hp.nodup_iff.mpr ((List.nodup_finRange 256).filter _), fun e => ?_, by rw [← hn]; rfl⟩
  rw [hp.mem_iff]
  exact mem_entriesOfPoint ..

/-- A record handed to the journal from a state that differs from the base in latches alone. -/
theorem writeRecord_justWrote (r : Record) (s : State) : justWrote r s (writeRecord r s) :=
  ⟨(writeRecord_writes r s).toWrote, writeRecord_took r s⟩

theorem writeInput_spec (i : InputNo) (r : Record) (s : State) : wroteInput i r s (writeInput i r s) := by
  refine ⟨⟨(follows_writeInput i r s).toDelivered, ?_⟩, _, writeRecord_justWrote r s, deliverInput_spec ..⟩
  obtain ⟨caused, h, -⟩ := writeRecord_took r s
  obtain ⟨rs, k⟩ := (follows_deliverInput (own s) i (numbered r s) (writeRecord r s)).journal
  refine ⟨caused ++ rs, ?_⟩
  unfold writeInput
  rw [k, h, ← Journal.writeAll_append, List.cons_append]

theorem inTurn_reports (l : List WatchEntry) (s : State) :
    inTurn (fun w => reportedToAll w.station w.input) l s (l.foldl (fun acc w => reportInput w.station w.input acc) s) := by
  induction l generalizing s with
  | nil => rfl
  | cons w rest ih =>
    rw [List.foldl_cons, inTurn]
    refine ⟨reportInput w.station w.input s, ?_, ?_⟩
    · exact reportInput_spec w.station w.input s
    · exact ih _

theorem makeUncertain_spec (source : Station) (s : State) :
    gapReported source s (makeUncertain (fun i => i == source) s) := by
  have same : (s.watch.map fun w => if (w.station == source) = true then { w with condition := .uncertain } else w) =
      s.watch.map fun w => if w.station = source then { w with condition := .uncertain } else w := by
    refine List.map_congr_left fun w _ => ?_
    by_cases h : w.station = source <;> simp [h]
  have doubted : s.watch.filter (WatchEntry.doubted fun i => i == source) =
      s.watch.filter fun w => w.station == source && decide (w.condition ≠ .uncertain) := by
    refine List.filter_congr fun w _ => ?_
    by_cases h : w.condition = .uncertain <;> simp [WatchEntry.doubted, h]
  unfold makeUncertain gapReported
  dsimp only
  rw [same, doubted]
  generalize s.setWatch (s.watch.map fun w => if w.station = source then { w with condition := .uncertain } else w) = u
  generalize (s.watch.filter fun w => w.station == source && decide (w.condition ≠ .uncertain)) = l
  obtain ⟨hp, n, hn⟩ := inAnyOrder_spec l u
  refine ⟨(inAnyOrder l u).1, n, And.intro hp ?_⟩
  rw [hn]
  exact inTurn_reports _ _

theorem hearRecord_spec (source : Station) (r : Record) (s : State) : heardRecord source r s (hearRecord source s r) := by
  have named : ∀ i : InputNo, (∃ w ∈ s.watch, w.station = source ∧ w.input = i) ↔ (watchEntry s source i).isSome = true := by
    intro i
    simp [watchEntry, WatchEntry.names, List.find?_isSome]
  unfold heardRecord hearRecord
  dsimp only
  refine ⟨?_, ?_⟩
  · rintro c i hc ⟨hi, hw⟩
    rw [named] at hw
    have hlt : r.subject.toNat < 64 := hi ▸ i.isLt
    have e : (⟨r.subject.toNat, hlt⟩ : InputNo) = i := Fin.ext hi.symm
    obtain ⟨w, hw⟩ := Option.isSome_iff_exists.mp hw
    rw [dif_pos hlt, e, hw, hc]
    have := deliverInput_spec source i r (s.setWatch (setCondition source i c s.watch))
    simpa only [setCondition, WatchEntry.names, Bool.and_eq_true, beq_iff_eq] using this
  · intro h
    split
    · rename_i hlt
      split
      · rename_i w c hw hc
        rcases h with h | h
        · rw [h] at hc
          exact absurd hc nofun
        · exact absurd ⟨rfl, (named _).mpr (by rw [hw]; rfl)⟩ (h ⟨r.subject.toNat, hlt⟩)
      · rfl
    · rfl

/-- Records heard are taken one after another. -/
theorem hearRecords_spec (source : Station) (l : List Record) (s : State) :
    inTurn (heardRecord source) l s (l.foldl (hearRecord source) s) := by
  induction l generalizing s with
  | nil => rfl
  | cons r rest ih =>
    rw [List.foldl_cons, inTurn]
    refine ⟨hearRecord source s r, ?_, ?_⟩
    · exact hearRecord_spec source r s
    · exact ih _

/-! ### The class 2 arbiter, the sender, the reader, and a telegram finished -/

/-- The arbiter, all that it can do (R54). -/
theorem arbitrate_spec (s : State) : classTwoFilled s (arbitrate s) := by
  unfold classTwoFilled arbitrate
  dsimp only
  refine ⟨fun hv => ?_, fun n hv hs ha => ?_, fun a rest hv ha hs => ?_, fun hv ha hs => ?_⟩
  · split
    · rename_i h; exact absurd h hv
    · rfl
  · rw [hv, hs]
    cases hq : s.query.answers with
    | nil => rfl
    | cons a rest =>
      rw [hq] at ha
      have hl : s.line.newsFilledLast = false := ha.resolve_left nofun
      simp only [hl]
      rfl
  · rw [hv, ha]
    cases hn : s.news.sender with
    | idle => rfl
    | placed n => rfl
    | formed n =>
      have hl : s.line.newsFilledLast = true := hs.resolve_left fun h => h n hn
      simp only [hl]
      rfl
  · rw [hv, ha]
    cases hn : s.news.sender with
    | formed n => exact absurd hn (hs n)
    | idle => rfl
    | placed n => rfl

theorem newsDue_iff (s : State) : newsDue s = true ↔ senderForms s := by
  have w : batchWaited s = true ↔ ∃ q rest, s.news.queue = q :: rest ∧ q.2 + 200000 ≤ s.clock.osc := by
    unfold batchWaited
    cases s.news.queue with
    | nil => simp
    | cons q rest =>
      exact ⟨fun h => ⟨q, rest, rfl, of_decide_eq_true h⟩, fun ⟨_, _, e, h⟩ => by cases e; exact decide_eq_true h⟩
  have f : flushPending s.news = true ↔ ∃ n, s.news.flushTarget = some n ∧ ∃ q ∈ s.news.queue, q.1.number = n := by
    unfold flushPending
    cases s.news.flushTarget with
    | none => simp
    | some n =>
      simp only [List.any_eq_true, beq_iff_eq]
      exact ⟨fun h => ⟨n, rfl, h⟩, fun ⟨_, e, h⟩ => by cases e; exact h⟩
  unfold newsDue senderForms
  simp only [Bool.and_eq_true, Bool.or_eq_true, decide_eq_true_eq, beq_iff_eq, Bool.not_eq_true', List.isEmpty_eq_false_iff, w, f,
    and_assoc, or_assoc]

/-- The sender's look, all that it can do (R105, R106, R108). -/
theorem newsLook_spec (s : State) : senderLooked s (newsLook s) := by
  unfold senderLooked newsLook
  rw [← newsDue_iff]
  exact ⟨fun h => if_neg h, fun h => by rw [if_pos h]; exact arbitrate_spec (formNews s)⟩

/-- The look of a read that collects, all that it can do (R95, R96). -/
theorem collectLook_spec (s : State) : readerCollected s (collectLook s) := by
  unfold readerCollected collectLook assemble
  dsimp only
  refine ⟨fun h => ?_, fun rd hr hc => ⟨fun hv => ?_, fun hv => ?_⟩⟩
  · split
    · rename_i rd hr
      have := h rd hr
      rw [if_neg (by simpa using this)]
    · rfl
  · rw [hr]
    dsimp only
    rw [if_pos (by simpa using hc)]
    split
    · rename_i h; exact absurd h hv
    · simp only [beq_eq_decide]
  · rw [hr]
    dsimp only
    rw [if_pos (by simpa using hc), hv]
    simp only [placeHistory, historyTelegram, placeTelegram, setSlot, destOf, beq_eq_decide]
    rfl

/-- The look of a read in NEWS_WAIT, all that it can do (R94). -/
theorem readerLook_spec (s : State) : readerLooked s (readerLook s) := by
  unfold readerLooked readerLook
  dsimp only
  refine ⟨fun h => ?_, fun rd hr hw => ?_⟩
  · split
    · rename_i rd hr
      have := h rd hr
      rw [if_neg (by simpa [and_assoc] using this)]
    · rfl
  · rw [hr]
    dsimp only
    rw [if_pos (by simpa [and_assoc] using hw)]
    exact collectLook_spec _

/-- A mask that already has a source's bit keeps it as other sources join. -/
theorem mask_kept (s : State) (a : AlarmSource) (l : List AlarmSource) (m : BitVec 11) (h : m ||| a.mask = m) :
    (l.foldl (fun m b => if live s b then m ||| b.mask else m) m) ||| a.mask =
      l.foldl (fun m b => if live s b then m ||| b.mask else m) m := by
  induction l generalizing m with
  | nil => exact h
  | cons b rest ih =>
    refine ih _ ?_
    dsimp only
    split
    · rw [BitVec.or_assoc, BitVec.or_comm b.mask, ← BitVec.or_assoc, h]
    · exact h

/-- The live mask has the bit of every source whose live condition holds (R195). -/
theorem liveMask_has (s : State) (a : AlarmSource) (h : live s a = true) : liveMask s ||| a.mask = liveMask s := by
  have key : ∀ (l : List AlarmSource) (m : BitVec 11), a ∈ l →
      (l.foldl (fun m b => if live s b then m ||| b.mask else m) m) ||| a.mask =
        l.foldl (fun m b => if live s b then m ||| b.mask else m) m := by
    intro l
    induction l with
    | nil => intro m hm; exact absurd hm nofun
    | cons b rest ih =>
      intro m hm
      rcases List.mem_cons.mp hm with rfl | hm
      · refine mask_kept s a rest _ ?_
        dsimp only
        rw [if_pos h, BitVec.or_assoc, BitVec.or_self]
      · exact ih _ hm
  exact key _ 0 (by cases a <;> decide)

/-- Freeing a hold latches HOLD where its condition is live, which the end of a command does in any case. -/
theorem relatch_setHolds (hs : List Hold) (s : State) :
    relatch (setHolds hs s) = relatch (s.setMarks { s.marks with holds := hs }) := by
  unfold setHolds latchIf
  split
  · rename_i h
    have has := liveMask_has (s.setMarks { s.marks with holds := hs }) .hold h
    have same : ∀ (u : State) (m : BitVec 11), liveMask u ||| m = liveMask u →
        relatch (u.setQuery { u.query with latched := u.query.latched ||| m }) = relatch u := by
      intro u m e
      have mask : liveMask (u.setQuery { u.query with latched := u.query.latched ||| m }) = liveMask u := rfl
      unfold relatch
      rw [mask]
      simp only [State.setQuery]
      rw [BitVec.or_assoc, BitVec.or_comm m, e]
    exact same _ _ has
  · rfl

/-- A telegram finished, all that its block does, but for the answer of a RESTART (R53). -/
theorem reportFinished_spec (x : OutTelegram) (sent : Bool) (s : State)
    (mark : ∀ m, x.payload = .mark m → s.line.slots[(1 : TelegramClass)] = .vacant)
    (stays : ∀ tag kind result data a rest, x.payload = .answer tag kind result data → s.query.answers = a :: rest →
      a.parts.length < 2 → a.forRestart = false) :
    ∃ t, blockFinishes x sent s t ∧ relatch t = relatch (reportFinished x sent s) := by
  unfold blockFinishes reportFinished
  cases hp : x.payload with
  | beacon i => exact ⟨s, rfl, rfl⟩
  | mark m =>
    refine ⟨_, rfl, congrArg relatch ?_⟩
    have hv := mark m hp
    unfold markFinished placeMark
    cases ho : s.marks.outgoing.drop 1 with
    | nil => simp [hv, State.setMarks, State.setLine, count16, satAdd]
    | cons m rest =>
      simp [hv, State.setMarks, State.setLine, count16, satAdd, placeTelegram, setSlot, everyStation]
  | news n =>
    unfold newsFinished
    dsimp only
    cases ht : carriedTarget s.news n with
    | none =>
      have hc : ¬ ∃ r ∈ n.records, s.news.flushTarget = some r.number := by
        rintro ⟨r, hr, e⟩
        simp only [carriedTarget, e, Option.filter, List.any_eq_true, beq_iff_eq] at ht
        rw [if_pos ⟨r, hr, rfl⟩] at ht
        exact absurd ht nofun
      refine ⟨_, ⟨s.news.flushTarget, _, _, fun h => absurd h hc, fun _ => rfl, ⟨fun _ => rfl, fun _ h => absurd h hc⟩,
        newsLook_spec _, arbitrate_spec _⟩, ?_⟩
      cases sent <;> rfl
    | some y =>
      have hy : s.news.flushTarget = some y ∧ ∃ r ∈ n.records, r.number = y := by
        simp only [carriedTarget, Option.filter_eq_some_iff, List.any_eq_true, beq_iff_eq] at ht
        exact ht
      have hc : ∃ r ∈ n.records, s.news.flushTarget = some r.number := by
        obtain ⟨e, r, hr, rfl⟩ := hy
        exact ⟨r, hr, e⟩
      refine ⟨_, ⟨none, targetFinished y (s.setNews
          { s.news with
            sender := .idle, flushTarget := none
            counters := if sent then { s.news.counters with sent := min 65535 (s.news.counters.sent + 1) }
              else { s.news.counters with discarded := min 65535 (s.news.counters.discarded + 1) } }), _, fun _ => rfl,
        fun h => absurd hc h, ⟨fun h => ?_, fun rd _ h => ?_⟩, newsLook_spec _, arbitrate_spec _⟩, ?_⟩
      · replace h := h.resolve_left fun k => k hc
        unfold targetFinished
        simp only [State.setNews]
        cases hr : s.reader with
        | none => rfl
        | some rd =>
          dsimp only
          rw [if_neg fun e => h rd ⟨hr, e.trans hy.1.symm⟩]
      · unfold targetFinished
        simp only [State.setNews]
        rw [h.1]
        dsimp only
        rw [if_pos (h.2.trans hy.1)]
        exact readerLook_spec _
      · cases sent <;> rfl
  | answer tag kind result data =>
    unfold answerFinished
    cases ha : s.query.answers with
    | nil => exact ⟨arbitrate s, ⟨fun _ => arbitrate_spec s, nofun⟩, rfl⟩
    | cons a rest =>
      dsimp only
      have one : ∀ b more, a :: rest = b :: more → a = b ∧ rest = more := by
        rintro _ _ ⟨⟩
        exact ⟨rfl, rfl⟩
      split
      · rename_i hl
        refine ⟨_, ⟨nofun, fun b more e => ?_⟩, rfl⟩
        obtain ⟨rfl, rfl⟩ := one b more e
        exact ⟨fun _ => arbitrate_spec _, fun h => absurd hl (by omega), fun _ h => absurd hl (by omega)⟩
      · rename_i hl
        have hf := stays tag kind result data a rest hp ha (by omega)
        rw [hf]
        refine ⟨_, ⟨nofun, fun b more e => ?_⟩, rfl⟩
        obtain ⟨rfl, rfl⟩ := one b more e
        refine ⟨fun h => absurd h hl, fun _ _ h => ?_, fun rd _ _ hr hs => ?_⟩
        · simp only [Bool.false_eq_true, if_false]
          split
          · rename_i hr
            have hn : s.reader = none := h.resolve_left (by rw [hr]; nofun)
            have e : acceptedFinished (s.setQuery { s.query with answers := rest }) = s.setQuery { s.query with answers := rest } := by
              unfold acceptedFinished
              simp only [State.setQuery, hn]
            rw [e]
            exact arbitrate_spec _
          · exact arbitrate_spec _
        · refine ⟨acceptedFinished (s.setQuery { s.query with answers := rest }), ?_, ?_⟩
          · unfold acceptedFinished
            simp only [State.setQuery, hs]
            exact readerLook_spec _
          · simp only [Bool.false_eq_true, if_false, hr, if_true]
            exact arbitrate_spec _
  | history tag ends overrun skipped records =>
    unfold historyFinished
    cases hr : s.reader with
    | none => exact ⟨s, ⟨fun _ => rfl, nofun⟩, rfl⟩
    | some rd =>
      have one : ∀ x, some rd = some x → rd = x := by
        rintro _ ⟨⟩
        rfl
      cases hm : rd.mode with
      | newsWait => exact ⟨s, ⟨nofun, by rintro x e; cases one x e; simp [hm]⟩, by simp [hm]⟩
      | collecting => exact ⟨s, ⟨nofun, by rintro x e; cases one x e; simp [hm]⟩, by simp [hm]⟩
      | ready =>
        refine ⟨placeHistory rd s, ⟨nofun, fun x e => ?_⟩, by simp [hm]⟩
        cases one x e
        simp [hm]
        rfl
      | placed =>
        dsimp only
        cases he : rd.ends with
        | false =>
          refine ⟨_, ⟨nofun, fun x e => ?_⟩, by simp [hm]; rfl⟩
          cases one x e
          simp only [hm, he]
          exact ⟨nofun, fun _ _ => collectLook_spec _, nofun, nofun⟩
        | true =>
          refine ⟨(s.setReader none).setMarks
              { s.marks with
                holds := s.marks.holds.map fun h =>
                  if rd.source = .hold h.mark.originator h.mark.number then { h with inUse := false } else h },
            ⟨nofun, fun x e => ?_⟩, ?_⟩
          · cases one x e
            simp only [hm, he]
            exact ⟨fun _ _ => trivial, nofun, nofun, nofun⟩
          · simp only [hm, if_true]
            unfold endRead markUse
            cases hsrc : rd.source with
            | journal =>
              simp [State.setMarks]
              rfl
            | hold o k =>
              dsimp only
              rw [relatch_setHolds]
              congr 1
              simp only [State.setMarks, State.setReader, ReadSource.hold.injEq]
              congr 2
              refine List.map_congr_left fun h _ => ?_
              refine if_congr ?_ rfl rfl
              simp only [Hold.named, Bool.and_eq_true, beq_iff_eq]
              exact ⟨fun e => ⟨e.1.symm, e.2.symm⟩, fun e => ⟨e.1.symm, e.2.symm⟩⟩

end Sys2Proof.Machine
end

