-- ==== Sys2Proof/Tests/Slice0.lean ====
section
/-! SUPPORT. Tests: terms that the checks of WellFormed refuse, worked values of the spec, and for each statement with hypotheses
small states that meet them. -/

namespace Sys2Proof.Tests

set_option Elab.async false

open Sys2Proof Sys2Proof.Machine

/-! ### WellFormed refuses each ill-formed term -/

theorem test_wellFormed_readTooLong : (Instr.configReadEnd (List.replicate 839 0)).wellFormed = false := by decide +kernel
theorem test_wellFormed_readWhole : (Instr.configReadEnd (List.replicate 838 0)).wellFormed = true := by decide +kernel
theorem test_wellFormed_labelDay : (Instr.referenceMessage 100000 0).wellFormed = false := by decide
theorem test_wellFormed_labelSecond : (Instr.referenceMessage 0 100000).wellFormed = false := by decide
theorem test_wellFormed_label : (Instr.referenceMessage 99999 99999).wellFormed = true := by decide
theorem test_wellFormed_ignored : (Instr.telegramIgnored ⟨63, 1, 5, List.replicate 161 0⟩).wellFormed = false := by decide +kernel
theorem test_wellFormed_duplicate :
    (Instr.duplicateStationTelegram ⟨63, 1, 5, List.replicate 161 0⟩).wellFormed = false := by decide +kernel
theorem test_wellFormed_newsEmpty : (Instr.news 1 0 0 []).wellFormed = false := by decide
theorem test_wellFormed_newsNine : (Instr.news 1 0 0 (List.replicate 9 default)).wellFormed = false := by decide
theorem test_wellFormed_newsDate :
    (Instr.news 1 0 0 [{ (default : Record) with date := ⟨72057594037927936, .ref⟩ }]).wellFormed = false := by decide
theorem test_wellFormed_newsEight : (Instr.news 1 0 0 (List.replicate 8 default)).wellFormed = true := by decide
theorem test_wellFormed_unknownKind :
    (Instr.unknownQuery 1 0 14 []).wellFormed = false ∧ (Instr.unknownQuery 1 0 15 []).wellFormed = true := by decide
theorem test_wellFormed_arguments : (Instr.readCheck 1 0 (List.replicate 159 0)).wellFormed = false := by decide +kernel

/-- The table gives no row bits, so no word spells a command. -/
theorem test_decode_none : decodeTableWord 8 0 = none ∧ decodeTableWord 0 5 = none := by decide

/-! ### A station to test on -/

/-- Station 5, configured, Locked, its line free, after 10 s, with three records. -/
def base : State :=
  { State.reset with
    clock := { State.reset.clock with osc := 100000000, lineTime := 10000000, cls := .agreed, slew := 7 }
    agree := { State.reset.agree with state := .locked, timerFrom := some 0, phase := some 11000000 }
    config := { State.reset.config with state := .configured, phase := .over, station := 5 }
    line := { State.reset.line with running := true, activity := .free, freeAt := some 0 }
    journal :=
      ⟨[{ (default : Record) with number := 0 }, { (default : Record) with number := 1 },
        { (default : Record) with number := 2 }], 3⟩ }

/-- A telegram is being received. -/
def hearing : State := base.setLine { base.line with activity := .hearing ⟨9999000, .agreed⟩ }

/-- The agreement state and the class that goes with it. -/
def inState (x : AgreementState) (s : State) : State :=
  (s.setAgree { s.agree with state := x }).setClock { s.clock with cls := classOf x }

/-- Peers 1 and 2 heard with one offset and one class. -/
def withPeers (offset : Int) (cls : ClockClass) (s : State) : State :=
  let p : Peer := { Peer.cleared with offset := some offset, cls := some cls, heard := true }
  s.setAgree { s.agree with peers := setAt (setAt s.agree.peers 1 p) 2 p }

/-- A command answers a next state with the property. -/
def answers (c : Instr) (s : State) (p : State → Bool) : Bool :=
  match exec c s with
  | .next t => p t
  | _ => false

theorem test_hearing_takesQuery : takesQuery 1 hearing := ⟨⟨⟨⟨9999000, .agreed⟩, rfl⟩, by decide⟩, by decide⟩

theorem test_base_quiet : quietWhileReading base := fun h => absurd rfl h

/-! ### The step, the clock and the reference port -/

theorem test_witness_step : (base.setPending [.lineBusy]).pending = .lineBusy :: [] := by decide

/-- Each clause of the empty queue: due at the first sample of all; nothing due; a walk that has a visit to make. -/
theorem test_witness_idle :
    State.reset.pending = [] ∧ due State.reset ≠ [] := by decide +kernel

/-- A station on which nothing is due. -/
def resting : State :=
  { base with
    input := { base.input with nextSample := 100001000 }
    agree := { base.agree with timerFrom := some 100000000 } }

theorem test_witness_period : resting.pending = [] ∧ due resting = [] ∧ visits resting = [] ∧ slotDue resting = [] := by
  decide +kernel

/-- A read of the journal that collects. -/
def reading : Read :=
  { mode := .collecting, requester := 1, tag := 7, source := .journal, fromDate := 0, toDate := 20000000, mask := 1
    next := 0, position := 0, remaining := 3, skipped := 0, collected := [], ends := false, target := none, answered := true }

theorem test_witness_visit :
    let s := resting.setReader (some reading)
    s.pending = [] ∧ due s = [] ∧ visits s ≠ [] := by decide +kernel

/-- The clock in a fast slew that ends now. -/
def slewing : State := base.setClock { base.clock with slew := 0, fastSlewEnd := some 100000000 }

theorem test_base_clockSound : clockSound base ∧ clockSound slewing := by unfold clockSound; decide

theorem test_witness_rate :
    clockSound base ∧ (period^[1] base).clock.lineTime < Config.maxLineTime ∧ base.clock.fastSlewEnd = none ∧
      clockSound slewing ∧ (period^[1] slewing).clock.lineTime < Config.maxLineTime ∧
      slewing.clock.fastSlewEnd ≠ none :=
  ⟨test_base_clockSound.1, by decide, by decide, test_base_clockSound.2, by decide, by decide⟩

/-- Every invariant statement has the premise that a step is taken; here a line that goes busy. -/
theorem test_witness_clockStaysSound : clockSound base ∧ ∃ t, step (base.setPending [.lineBusy]) = .next t :=
  ⟨test_base_clockSound.1, _, rfl⟩

theorem test_witness_neverDecreases :
    clockSound base ∧ classFollowsState base ∧ base.clock.cls ≠ .unset ∧
      (base.setPending [.lineBusy]).pending.head? ≠ some .powerOn ∧ ∃ t, step (base.setPending [.lineBusy]) = .next t :=
  ⟨test_base_clockSound.1, rfl, by decide, by decide, _, rfl⟩

/-- A restart edge was seen at the latest sample. -/
def edged (x : AgreementState) : State := let s := inState x base; s.setPins { s.pins with restartEdge := true }

theorem test_witness_classFollows :
    classFollowsState (edged .holdover) ∧ (edged .holdover).agree.state = .holdover ∧
      (edged .unset).pins.restartEdge = true ∧ answers .restartPin (edged .unset) (fun t => t.clock.cls == .unset) = true ∧
      answers .restartPin (edged .locked) (fun t => t.clock.cls == .drifting) = true ∧
      answers .powerOn base (fun t => t.clock.cls == .unset) = true := by
  refine ⟨rfl, rfl, rfl, ?_, ?_, ?_⟩ <;> decide +kernel

theorem test_witness_fastSlewEnd : ∃ x, slewing.clock.fastSlewEnd = some x ∧ x ≤ slewing.clock.osc := ⟨100000000, by decide⟩

/-- Line time at the phase, with the class 0 slot EMPTY and with a beacon on the line. -/
def atPhase : State := base.setAgree { base.agree with phase := some 10000000 }

/-- A telegram on the line in its class's slot, since a moment. -/
def sending (k : TelegramClass) (x : OutTelegram) (n since : Nat) (s : State) : State :=
  s.setLine { s.line with activity := .sending, slots := setAt s.line.slots k (.sending x n since) }

theorem test_witness_beaconPhase :
    atPhase.agree.phase = some 10000000 ∧ 10000000 ≤ atPhase.clock.lineTime ∧
      atPhase.line.slots[(0 : TelegramClass)].isSending = false ∧
      (sending 0 ⟨63, .beacon none⟩ 1 99999990 atPhase).line.slots[(0 : TelegramClass)].isSending = true := by decide

/-- A beacon whose start sequence of 320 periods ends with this one, and one whose ends with the next (R24, R58). -/
theorem test_witness_beaconItems :
    let s := sending 0 ⟨63, .beacon none⟩ 1 99999681 base
    let u := sending 0 ⟨63, .beacon none⟩ 1 99999682 base
    s.line.slots[(0 : TelegramClass)] = .sending ⟨63, .beacon none⟩ 1 99999681 ∧
      99999681 + 8 * bitPeriods s = (period s).clock.osc ∧ (period u).clock.osc < 99999682 + 8 * bitPeriods u ∧
      (period u).line = u.line := by decide +kernel

/-- A SEARCHING reference port with a pending label, the third, and its pulse seen at the latest sample. -/
def labelled (s : State) : State :=
  { s with
    port :=
      { s.port with
        state := .searching, pulseSeen := true, pending := some (⟨3, 5⟩, 50000000), lastLabel := some ⟨3, 4⟩, count := 2 }
    input := { s.input with sampledAt := some 51000000, sampleDate := ⟨5100000, s.clock.cls⟩ } }

theorem test_witness_messages :
    (65535 ≤ 99999 ∧ 86399 ≤ 99999) ∧ (labelled base).port.state ≠ .notFitted := by decide

/-- A message may be read whatever came before it; the day and the second of the message are those of its digits. -/
theorem test_label_digits : labelDigits 65535 86399 = [54, 53, 53, 51, 53, 56, 54, 51, 57, 57] := by decide

theorem test_agreementSound (x : AgreementState) (h : x ≠ .reference) : agreementSound (labelled (inState x base)) := by
  cases x <;> first | exact absurd rfl h | (unfold agreementSound; decide +kernel)

theorem test_witness_referenceValid (x : AgreementState) (h : x = .holdover ∨ x = .unset) :
    let s := labelled (inState x base)
    s.port.pulseSeen = true ∧ s.port.state = .searching ∧ s.input.sampledAt = some 51000000 ∧
      s.port.pending = some (⟨3, 5⟩, 50000000) ∧ 50000000 + 1000000 ≤ 51000000 ∧ s.port.lastLabel = some ⟨3, 4⟩ ∧
      Label.succ ⟨3, 4⟩ = some ⟨3, 5⟩ ∧ s.port.count = 2 ∧ classFollowsState s ∧ agreementSound s ∧
      (s.clock.cls = .unset ↔ x = .unset) := by
  refine ⟨rfl, rfl, rfl, rfl, by decide, rfl, by decide, rfl, ?_, test_agreementSound x (by rcases h with rfl | rfl <;> decide), ?_⟩ <;>
    rcases h with rfl | rfl <;> first | rfl | decide

/-- A pulse seen at the latest sample, with the label of day 3, second 5. -/
def pulseAt (x : PortState) (count : Nat) (last : Option Label) (done : OscTime) (s : State) : State :=
  let s := labelled s
  s.setPort { s.port with state := x, count := count, lastLabel := last, pending := some (⟨3, 5⟩, done) }

/-- A label whose message completed 100 ms before the pulse exactly, and 0.1 µs less. -/
theorem test_witness_pulse (x : PortState) (count : Nat) (last : Option Label) :
    labelledPulseAt 51000000 ⟨3, 5⟩ (pulseAt x count last 50000000 base) ∧
      unlabelledPulse (pulseAt x count last 50000001 base) ∧
      (pulseAt x count last 50000000 base).port.state = x ∧ (pulseAt x count last 50000000 base).port.count = count :=
  ⟨⟨rfl, rfl, 50000000, rfl, by decide⟩, ⟨rfl, .inr ⟨51000000, ⟨3, 5⟩, 50000001, rfl, rfl, by decide⟩⟩, rfl, rfl⟩

/-- Consecutive to the last label, with none held, and not consecutive. -/
theorem test_witness_follows (x : PortState) (count : Nat) :
    follows (pulseAt x count (some ⟨3, 4⟩) 50000000 base).port ⟨3, 5⟩ ∧
      follows (pulseAt x count none 50000000 base).port ⟨3, 5⟩ ∧
      ¬ follows (pulseAt x count (some ⟨3, 3⟩) 50000000 base).port ⟨3, 5⟩ := by
  refine ⟨.inr ⟨⟨3, 4⟩, rfl, by decide⟩, .inl rfl, ?_⟩
  rintro (h | ⟨y, hy, h⟩)
  · exact absurd h nofun
  · cases hy; exact absurd h (by decide)

/-! The pulses that count 1 and 2, and a pulse of a VALID port whose label came too late (R14, R15). -/
theorem test_pulse_counts : answers .referencePulse (pulseAt .searching 1 (some ⟨3, 4⟩) 50000000 base)
    (fun t => t.port.count == 2 && t.port.state == .searching) = true := by decide +kernel
theorem test_pulse_lateLabel : answers .referencePulse (inState .reference (pulseAt .valid 3 (some ⟨3, 4⟩) 50000001 base))
    (fun t => t.port.count == 0 && t.port.state == .searching && t.clock.cls == .drifting) = true := by decide +kernel

/-- A station in Reference whose loss timer has reached 2.5 s, and which sees a pulse with no label. -/
def losing : State :=
  let s := inState .reference base
  s.setPort { s.port with state := .valid, lossFrom := some 75000000, count := 3, lastLabel := some ⟨1, 1⟩, pulseSeen := true }

theorem test_witness_referenceLost :
    losing.port.state = .valid ∧ losing.agree.state = .reference ∧ losing.clock.cls = .ref ∧
      losing.port.lossFrom = some 75000000 ∧ 75000000 + 25000000 ≤ losing.clock.osc ∧ losing.port.pulseSeen = true ∧
      losing.port.pending = none := by decide

/-! ### The agreement unit -/

/-- The counts of an agreement state. -/
def counting (locks disputes empties : Nat) (s : State) : State :=
  s.setAgree { s.agree with lockCount := locks, disputeCount := disputes, emptyCount := empties }

theorem test_due (s : State) (h : s.clock.fastSlewEnd = none) (hx : s.agree.timerFrom = some 0) (ho : s.clock.osc = 100000000)
    (hi : s.settings.interval = 8) : intervalDue s := ⟨h, 0, hx, by rw [ho, hi]; decide⟩

theorem test_witness_agreementSound : agreementSound base ∧ ∃ t, step (base.setPending [.lineBusy]) = .next t :=
  ⟨by unfold agreementSound; decide +kernel, _, rfl⟩

/-- Peers heard of class DRIFTING alone; the empty count at 2 and at 3. -/
theorem test_witness_emptyIntervals :
    let s := withPeers 5 .drifting base
    s.agree.state = .locked ∧ s.clock.cls = .agreed ∧ intervalDue s ∧ members s = [] ∧
      (∀ i : Station, s.agree.peers[i].heard = true →
        s.agree.peers[i].cls = some .drifting ∨ s.agree.peers[i].cls = some .unset) ∧
      s.agree.peers[(1 : Station)].heard = true ∧ (counting 0 0 2 s).agree.emptyCount < 3 ∧
      3 ≤ (counting 0 0 3 s).agree.emptyCount := by
  refine ⟨rfl, rfl, test_due _ rfl rfl rfl rfl, ?_, ?_, ?_, ?_, ?_⟩ <;> decide +kernel

theorem test_witness_notEmpty :
    let s := counting 0 0 3 (withPeers 5 .agreed base)
    agreementSound s ∧ s.agree.state = .locked ∧ s.clock.cls = .agreed ∧ intervalDue s ∧ members s ≠ [] ∧
      answers .intervalEnd s (fun t => t.agree.emptyCount == 0) = true := by
  refine ⟨?_, rfl, rfl, test_due _ rfl rfl rfl rfl, ?_, ?_⟩
  · unfold agreementSound; decide +kernel
  all_goals decide +kernel

/-- A dispute just above the threshold of 2 ms, one way and the other: of 0, 2001 and 2001 the middle one is kept. -/
def disputed (c : Int) (n : Nat) : State := counting 0 n 2 (withPeers c .agreed base)

theorem test_witness_dispute :
    (disputed 2001 1).agree.state = .locked ∧ intervalDue (disputed 2001 1) ∧ members (disputed 2001 1) ≠ [] ∧
      (disputed 2001 1).settings.thresholdMs * 1000 < (midpoint (members (disputed 2001 1))).natAbs ∧
      (disputed 2001 1).agree.disputeCount < 2 ∧
      midpoint (members (disputed 2001 2)) = 2001 ∧ 2 ≤ (disputed 2001 2).agree.disputeCount ∧
      midpoint (members (disputed (-2001) 2)) = -2001 := by
  refine ⟨rfl, test_due _ rfl rfl rfl rfl, ?_, ?_, ?_, ?_, ?_, ?_⟩ <;> decide +kernel

/-- A C just above the threshold, one way and the other, in Acquiring, in Holdover and in Reference. -/
def held (c : Int) : State :=
  let s := inState .reference base
  (s.setAgree { s.agree with refOffset := some c }).setPort { s.port with state := .valid }

theorem test_witness_largeElsewhere :
    (∀ x, x = .acquiring ∨ x = .holdover → ∀ c : Int, c = 2001 ∨ c = -2001 →
      let s := inState x (withPeers c .agreed base)
      intervalDue s ∧ classFollowsState s ∧ agreementSound s ∧ members s ≠ [] ∧ midpoint (members s) = c) ∧
      (∀ c : Int, c = 2001 ∨ c = -2001 → intervalDue (held c) ∧ classFollowsState (held c) ∧ agreementSound (held c) ∧
        (held c).agree.state = .reference ∧ (held c).agree.refOffset = some c) ∧
      base.settings.thresholdMs * 1000 < (2001 : Int).natAbs := by
  refine ⟨?_, ?_, by decide⟩
  · rintro x (rfl | rfl) c (rfl | rfl) <;> refine ⟨test_due _ rfl rfl rfl rfl, rfl, ?_, ?_, ?_⟩ <;>
      first | decide +kernel | (unfold agreementSound; decide +kernel)
  · rintro c (rfl | rfl) <;> refine ⟨test_due _ rfl rfl rfl rfl, rfl, ?_, rfl, rfl⟩ <;>
      (unfold agreementSound; decide +kernel)

/-- A C of exactly the threshold, 2,000 µs, is still small; one of 250 µs counts toward Locked, and 251 does not. -/
theorem test_witness_small :
    let held := (inState .reference base).setAgree { (inState .reference base).agree with refOffset := some (-2000) }
    intervalDue held ∧ classFollowsState held ∧ held.agree.state = .reference ∧ held.agree.refOffset = some (-2000) ∧
      (∀ x, x = .acquiring ∨ x = .locked ∨ x = .holdover →
        ∀ c, c = 2000 ∨ c = 250 → intervalDue (inState x (withPeers c .agreed base)) ∧
          classFollowsState (inState x (withPeers c .agreed base)) ∧
          members (inState x (withPeers c .agreed base)) ≠ []) ∧
      midpoint (members (inState .locked (withPeers 2000 .agreed base))) = 2000 ∧
      midpoint (members (counting 3 0 0 (inState .acquiring (withPeers 250 .agreed base)))) = 250 ∧
      midpoint (members (counting 3 0 0 (inState .acquiring (withPeers 251 .agreed base)))) = 251 ∧
      (2000 : Nat) ≤ base.settings.thresholdMs * 1000 := by
  refine ⟨test_due _ rfl rfl rfl rfl, rfl, rfl, rfl, ?_, ?_, ?_, ?_, ?_⟩
  · rintro x (rfl | rfl | rfl) c (rfl | rfl) <;> refine ⟨test_due _ rfl rfl rfl rfl, rfl, ?_⟩ <;> decide +kernel
  all_goals decide +kernel

/-- An impulse line of 30 s at a position. -/
def dialAt (p : Nat) (x : DialState) : Dial :=
  { Dial.atPowerOn with
    position := some p, state := x
    defn := { enabled := true, step := 30, widthMs := 100, spacingMs := 1000 } }

/-- An Unset station with peers a day ahead and an impulse line set. -/
def unsetStation : State :=
  let s := inState .unset (withPeers 86400000000 .agreed base)
  s.setDials (setAt s.dials 0 (dialAt 3 .noTime))

theorem test_witness_firstSetting :
    slewing.clock.fastSlewEnd.isSome = true ∧ slewing.agree.timerFrom = some 0 ∧
      0 + secondPeriods slewing.settings.interval ≤ slewing.clock.osc ∧
      unsetStation.agree.state = .unset ∧ unsetStation.clock.cls = .unset ∧ intervalDue unsetStation ∧
      members unsetStation ≠ [] ∧ unsetStation.dials[(0 : DialNo)].position = some 3 := by
  refine ⟨rfl, rfl, ?_, rfl, rfl, test_due _ rfl rfl rfl rfl, ?_, rfl⟩ <;> decide +kernel

/-- Of three members one may lie outside. -/
theorem test_witness_midpoint :
    let ms : List Member := [(0, 1), (5, 2), (900000, 3)]
    ms ≠ [] ∧ (ms.filter fun m => decide (m.1 < 0) || decide (5 < m.1)).length ≤ setAside ms.length := by decide

/-- Two peers heard of class AGREED at a station of class AGREED: three members, the station itself one of them. -/
theorem test_witness_members :
    let s := withPeers 60 .agreed base
    s.agree.peers[own s].heard = false ∧ bestClassIs s.agree.peers .agreed ∧
      members s = [((60 : Int), (1 : Station)), (60, 2), (0, 5)] := by
  refine ⟨by decide +kernel, ⟨⟨1, by decide +kernel⟩, ?_⟩, by decide +kernel⟩
  intro i c hi hc
  have h : ∀ i : Station, (withPeers 60 .agreed base).agree.peers[i].heard = true →
      (withPeers 60 .agreed base).agree.peers[i].cls = some .agreed := by decide +kernel
  cases (h i hi).symm.trans hc; exact Nat.le_refl _

/-- The worked midpoint of chapter 02 at station 0: C is +60, station 14 is set aside for the eighth time, station 9 is kept. -/
theorem test_witness_streaks :
    let ms : List Member := [(340, 2), (120, 9), (-60, 14), (95, 21), (0, 0)]
    let peers : Vector Peer 32 := Vector.replicate 32 { Peer.cleared with streak := 7 }
    midpoint ms = 60 ∧ (∀ m ∈ ms, m.2 ≠ (31 : Station)) ∧ (∃ m ∈ keptMembers ms, m.2 = (9 : Station)) ∧
      (∃ m ∈ ms, m.2 = (14 : Station)) ∧ (∀ m ∈ keptMembers ms, m.2 ≠ (14 : Station)) ∧
      (updateStreaks 0 ms peers)[(14 : Station)] = { Peer.cleared with streak := 8, outlier := true } ∧
      (updateStreaks 0 ms peers)[(9 : Station)] = Peer.cleared ∧
      (updateStreaks 0 ms peers)[(0 : Station)].streak = 7 := by decide +kernel

theorem test_witness_beacon : hearing.line.activity = .hearing ⟨9999000, .agreed⟩ ∧ (1 : Station) ≠ own hearing ∧
    hearing.settings.delay = 0 ∧
    ((86409999000 : BitVec 56).toNat : Int) + hearing.settings.delay - 9999000 = 86400000000 := by decide

/-! A beacon one day off exactly is recorded, and one a microsecond more is discarded (R26). -/
theorem test_beacon_day : answers (.beacon 1 .agreed 0 false 86409999000) hearing
    (fun t => t.line.counters.discards == 0) = true := by decide +kernel
theorem test_beacon_moreThanADay : answers (.beacon 1 .agreed 0 false 86409999001) hearing
    (fun t => t.line.counters.discards == 1) = true := by decide +kernel

theorem test_base_entriesSound (s : State) (h : s.checks = Vector.replicate 256 none) : entriesSound s := by
  intro e c hc; simp [h] at hc

theorem test_base_holdsFit (s : State) (h : s.marks.holds = []) : holdsFit s := by
  unfold holdsFit; rw [h]; exact ⟨by decide, by decide, by simp, by simp⟩

theorem test_dialUnset : Dial.atPowerOn.sound := by
  unfold Dial.sound; simp [Dial.atPowerOn]

theorem test_base_dialsSound (s : State) (h : s.dials = Vector.replicate 4 Dial.atPowerOn) : dialsSound s := by
  intro l; simp [h]; exact test_dialUnset

theorem test_witness_jump :
    let s := inState .unset (withPeers 86400000000 .agreed base)
    let q := labelled (inState .unset base)
    entriesSound s ∧ dialsSound s ∧ holdsFit s ∧ answers .intervalEnd s (fun t => t.clock.lineTime != s.clock.lineTime) = true ∧
      entriesSound q ∧ dialsSound q ∧ holdsFit q ∧
      answers .referencePulse q (fun t => t.clock.lineTime != q.clock.lineTime) = true :=
  ⟨test_base_entriesSound _ rfl, test_base_dialsSound _ rfl, test_base_holdsFit _ rfl, by decide +kernel,
    test_base_entriesSound _ rfl, test_base_dialsSound _ rfl, test_base_holdsFit _ rfl, by decide +kernel⟩

/-! ### The timing line -/

/-- A hold of the mark 1 of station 9, over the first 20 s of line time. -/
def holdIn (x : HoldState) (records : Nat) : Hold :=
  { mark := ⟨9, 1, 2, 0, 10000000, 10, 10⟩, start := 0, stop := 20000000, cls := .agreed, state := x, truncated := false
    isPartial := false, walk := if x = .copying then some 1 else none
    deadline := if x = .closed then none else some 21000000, closeDue := false, inUse := false
    records := List.replicate records default }

theorem test_witness_frames : (List.replicate 160 (0 : Byte)).length ≤ 160 ∧ frame [] = none ∧
    (List.replicate 157 (0 : Byte)).length ≤ 157 := by simp; decide

/-- The one telegram a beacon is, framed again (R48, R58). -/
theorem test_frame_beacon : frame (telegramOnLine ⟨63, 5, 0, [2, 0, 0, 0, 0, 0, 0, 9]⟩) =
    some ⟨63, 5, 0, [2, 0, 0, 0, 0, 0, 0, 9]⟩ := by decide +kernel

theorem test_witness_heardAsSent : (2 : Station) ≠ 5 ∧ (72057594037927935 : Nat) < 2 ^ 56 ∧ (600 : Nat) < 65536 ∧
    1 ≤ (List.replicate 8 (default : Record)).length ∧ (List.replicate 8 (default : Record)).length ≤ 8 ∧
    (255 : Nat) < 256 ∧ ∀ r ∈ List.replicate 8 (default : Record), r.date.time < 2 ^ 56 := by
  refine ⟨by decide, by decide, by decide, by decide, by decide, by decide, ?_⟩
  intro r h; rw [List.eq_of_mem_replicate h]; decide

/-- The line quiet for one round, with the fairness hold standing. -/
def quiet : State := base.setLine { base.line with freeAt := some 99959040, fairness := true }

/-- A busy line, quiet from a moment on. -/
def busyFrom (x : OscTime) : State :=
  base.setLine { base.line with activity := .busy, quietFrom := some x, freeAt := none }

/-- R47: after 16 bit-times of 40 periods the line is free, and one period before it is not. -/
theorem test_witness_quiet :
    (busyFrom 99999360).line.running = true ∧ (busyFrom 99999360).line.activity = .busy ∧
      99999360 + 16 * bitPeriods (busyFrom 99999360) = (busyFrom 99999360).clock.osc ∧
      (busyFrom 99999361).clock.osc < 99999361 + 16 * bitPeriods (busyFrom 99999361) ∧
      Instr.lineFree ∈ due (busyFrom 99999360) ∧ Instr.lineFree ∉ due (busyFrom 99999361) := by decide +kernel

/-- The line busy; framing; quiet for one round of 1,024 bit-times of 40 periods with the fairness hold standing. -/
theorem test_witness_line :
    base.line.running = true ∧ (base.setLine { base.line with activity := .busy }).line.activity = .busy ∧
      base.line.activity = .free ∧ (base.setLine { base.line with activity := .framing }).line.activity = .framing ∧
      quiet.line.activity = .free ∧ quiet.line.freeAt = some 99959040 ∧ quiet.line.fairness = true ∧
      99959040 + 1024 * bitPeriods quiet = quiet.clock.osc ∧
      receptionOf (own hearing) [] = .dropped := by decide

theorem test_witness_lineTelegrams :
    consistent ⟨63, 5, 0, List.replicate 8 0⟩ = true ∧ sourceOf ⟨63, 5, 0, List.replicate 8 0⟩ = own hearing ∧
      (∀ t ∈ [(⟨9, 1, 3, []⟩ : Telegram), ⟨63, 1, 5, []⟩, ⟨9, 1, 4, [0, 0]⟩, ⟨62, 1, 0, List.replicate 8 0⟩],
        consistent t = true ∧ sourceOf t ≠ own hearing ∧ (t.kind.toNat = 3 ∨ 5 ≤ t.kind.toNat ∨
          (t.kind.toNat = 4 ∧ t.dest.toNat ≠ (own hearing).val) ∨ (t.kind.toNat < 3 ∧ t.dest.toNat ≠ 63))) := by decide

/-- A telegram that waits in the slot of a class. -/
def waitingIn (k : TelegramClass) (x : OutTelegram) (s : State) : State :=
  s.setLine { s.line with slots := setAt s.line.slots k (.waiting x 0) }

/-- The own mark sent. -/
def ownMark : OutTelegram := ⟨63, .mark ⟨5, 0, 2, 0, 10000000, 0, 0⟩⟩

/-- Station 5's slot of class 1 begins 296 bit-times after free, 11,840 oscillator periods at 250 kbit/s, and again 1,024 later. -/
theorem test_witness_contention :
    let s := waitingIn 1 ownMark (base.setLine { base.line with freeAt := some 99947200 })
    s.line.activity = .free ∧ s.line.freeAt = some 99947200 ∧
      s.clock.osc = 99947200 + 1 * (1024 * bitPeriods s) + (32 * 1 + (own s).val) * 8 * bitPeriods s ∧
      s.line.slots[(1 : TelegramClass)] = .waiting ownMark 0 ∧ s.line.fairness = false ∧
      (∀ j : TelegramClass, j < 1 → s.line.slots[j] = .vacant) ∧ (((5 : Station), (1 : TelegramClass)) ≠ (5, 2)) ∧
      s.settings.bitRate = 250 := by decide

/-- Nothing is due but the slot, with a walk's visit to make and without; a telegram has started at this very moment. -/
theorem test_witness_slot :
    let s := (waitingIn 1 ownMark resting).setLine
      { (waitingIn 1 ownMark resting).line with freeAt := some 99947200 }
    due s = [] ∧ visits s = [] ∧ slotDue s = [.contentionSlot 1] ∧ visits (s.setReader (some reading)) ≠ [] ∧
      (sending 1 ownMark 1 100000000 base).line.slots[(1 : TelegramClass)] =
        .sending ownMark 1 (sending 1 ownMark 1 100000000 base).clock.osc := by decide +kernel

/-- R57: while the hold stands a telegram of class 1 waits; a telegram of class 2 is not for the slot of class 1. -/
theorem test_witness_notEligible :
    let s := (waitingIn 1 ownMark base).setLine { (waitingIn 1 ownMark base).line with fairness := true }
    s.line.slots[(1 : TelegramClass)] = .waiting ownMark 0 ∧ s.line.fairness = true ∧
      (∀ k : TelegramClass, k ≠ 1 → s.line.slots[k] = .vacant) ∧ ((1 : TelegramClass) < 2) := by decide

/-- A telegram that has been on the line for exactly its length, and one that has just begun. -/
theorem test_witness_sent :
    let s := sending 1 ownMark 8 99991440 base
    99991440 + telegramBits ownMark * bitPeriods s ≤ s.clock.osc ∧ s.clock.osc ≤ 99999999 + telegramBits ownMark * bitPeriods s ∧
      s.line.slots[(1 : TelegramClass)] = .sending ownMark 8 99991440 ∧
      (∀ x ∈ [(⟨63, .beacon none⟩ : OutTelegram), ownMark, ⟨63, .news ⟨0, 0, [default]⟩⟩, ⟨1, .answer 0 1 .ok []⟩,
        ⟨1, .history 0 true false 0 []⟩], telegramBits x < 99990000) := by decide +kernel

/-- The line sound while one slot is SENDING; the sender is PLACED where that slot holds its NEWS telegram. -/
theorem test_lineSound' (k : TelegramClass) (x : OutTelegram) (n since : Nat) (y : Sender) (h : x.payload.slotClass = k)
    (h1 : 1 ≤ n) (h8 : n ≤ 8) (hs : since ≤ 100000000) (hk : ∀ m, y = .placed m ↔ x.payload = .news m) :
    lineSound ((sending k x n since base).setNews { base.news with sender := y }) := by
  let s := (sending k x n since base).setNews { base.news with sender := y }
  have e : s.line.slots = setAt (Vector.replicate 4 Slot.vacant) k (.sending x n since) := rfl
  change lineSound s
  refine ⟨⟨fun _ => rfl, fun _ => rfl⟩, fun h => absurd (show true = false from h) (by decide), ?_, ?_,
    fun _ => rfl, fun _ h => absurd (show Activity.sending = .busy from h) nofun, ?_, ?_⟩
  · exact ⟨fun _ => ⟨k, by rw [e]; simp [Slot.isSending]⟩, fun _ => rfl⟩
  · have key : ∀ j : TelegramClass, s.line.slots[j].isSending = true → j = k := by
      intro j hj
      by_contra hne
      have : (k : Nat) ≠ j := fun hh => hne (Fin.ext hh.symm)
      rw [e] at hj
      simp [Vector.getElem_set_ne _ _ this, Slot.isSending] at hj
    intro i j hi hj
    rw [key i hi, key j hj]
  · intro j
    by_cases hj : j = k
    · subst hj
      rw [e]; simp [Slot.sound, h, h1, Config.maxAttempts, h8]
      exact hs
    · have : (k : Nat) ≠ j := fun hh => hj (Fin.ext hh.symm)
      rw [e]; simp [Vector.getElem_set_ne _ _ this, Slot.sound]
  · intro m
    rw [e]
    show (y = .placed m ↔ _)
    rw [hk]
    by_cases h2 : k = 2
    · subst h2
      show (_ ↔ some x.payload = some (Payload.news m))
      simp
    · have : (k : Nat) ≠ 2 := fun hh => h2 (Fin.ext hh)
      have hn : x.payload ≠ .news m := fun hx => h2 (by rw [← h, hx]; rfl)
      simp [hn, Vector.getElem_set_ne _ _ this, Slot.telegram]

theorem test_lineSound (k : TelegramClass) (x : OutTelegram) (n since : Nat) (h : x.payload.slotClass = k)
    (h1 : 1 ≤ n) (h8 : n ≤ 8) (hs : since ≤ 100000000) (hk : ∀ m, x.payload ≠ .news m) : lineSound (sending k x n since base) :=
  test_lineSound' k x n since .idle h h1 h8 hs fun m => ⟨nofun, fun hx => absurd hx (hk m)⟩

theorem test_witness_lineSound :
    lineSound (sending 1 ownMark 8 99991440 base) ∧ lineSound (sending 0 ⟨63, .beacon none⟩ 1 99991440 base) ∧
      ∃ t, step ((sending 1 ownMark 8 99991440 base).setPending [.mismatch]) = .next t :=
  ⟨test_lineSound _ _ _ _ rfl (by decide) (by decide) (by decide) (by intro m; exact nofun),
    test_lineSound _ _ _ _ rfl (by decide) (by decide) (by decide) (by intro m; exact nofun), by
      have : answers .mismatch (sending 1 ownMark 8 99991440 base) (fun _ => true) = true := by decide +kernel
      unfold answers at this
      split at this
      · exact ⟨_, ‹_›⟩
      · exact absurd this (by decide)⟩

/-- The OK answer of a RESTART, on the line since a moment. -/
def restartingSince (since : Nat) : State :=
  let s := sending 2 ⟨1, .answer 0 14 .ok []⟩ 8 since base
  s.setQuery { s.query with restartPending := true, answers := [⟨1, 0, 14, .ok, [[]], false, true⟩] }

def restarting : State := restartingSince 99991440

theorem test_witness_restartAnswer :
    lineSound restarting ∧ restarting.line.slots[(2 : TelegramClass)] = .sending ⟨1, .answer 0 14 .ok []⟩ 8 99991440 ∧
      99991440 + telegramBits ⟨1, .answer 0 14 .ok []⟩ * bitPeriods restarting ≤ restarting.clock.osc ∧
      restarting.query.answers = ⟨1, 0, 14, .ok, [[]], false, true⟩ :: [] ∧
      payloadKind (.answer 0 14 .ok []) = 3 ∧ holdsFit restarting ∧ ([[]] : List (List Byte)).length < 2 :=
  ⟨test_lineSound 2 ⟨1, .answer 0 14 .ok []⟩ 8 99991440 rfl (by decide) (by decide) (by decide) (by simp),
    by decide, by decide +kernel, by decide, by decide, test_base_holdsFit _ rfl, by decide⟩

/-- The same in the half of its first bit, a 0, that the station releases. -/
theorem test_witness_restartMismatch :
    lineSound (restartingSince 99999980) ∧ holdsFit (restartingSince 99999980) ∧
      (telegramBitList (onTheLine (own (restartingSince 99999980)) ⟨1, .answer 0 14 .ok []⟩))[0]? = some false ∧
      99999980 + bitPeriods (restartingSince 99999980) / 2 ≤ (restartingSince 99999980).clock.osc :=
  ⟨test_lineSound 2 ⟨1, .answer 0 14 .ok []⟩ 8 99999980 rfl (by decide) (by decide) (by decide) (by simp),
    test_base_holdsFit _ rfl, by decide +kernel, by decide +kernel⟩

/-- Bit 0 of the mark telegram is 0 and bit 1 is 1, 40 periods each: a moment in a half-bit that the station releases of each, in one that it
drives of each, and one after the last bit; by an attempt that has been tried before and by the eighth, of a mark and of a beacon (R59). -/
theorem test_witness_mismatch :
    let bits := telegramBitList (onTheLine (own base) ownMark)
    bits[0]? = some false ∧ bits[1]? = some true ∧ bitPeriods base = 40 ∧
      (∀ since : Nat, since = 99999980 ∨ since = 99999999 ∨ since = 99999960 ∨ since = 99999941 →
        ∀ n, 1 ≤ n → n ≤ 8 → lineSound (sending 1 ownMark n since base) ∧ lineSound (sending 0 ⟨63, .beacon none⟩ 1 since base)) ∧
      99999980 + 40 / 2 ≤ base.clock.osc ∧ base.clock.osc < 99999980 + 40 ∧ base.clock.osc < 99999999 + 40 / 2 ∧
      99999960 + 40 ≤ base.clock.osc ∧ base.clock.osc < 99999960 + 40 + 40 / 2 ∧ 99999941 + 40 + 40 / 2 > base.clock.osc - 1 ∧
      99991440 + telegramBits ownMark * 40 ≤ base.clock.osc := by
  refine ⟨by decide +kernel, by decide +kernel, by decide, ?_, by decide +kernel⟩
  rintro since h n h1 h8
  have hs : since ≤ 100000000 := by rcases h with rfl | rfl | rfl | rfl <;> decide
  exact ⟨test_lineSound _ _ _ _ rfl h1 h8 hs (by intro m; exact nofun),
    test_lineSound _ _ _ _ rfl (by decide) (by decide) hs (by intro m; exact nofun)⟩

/-! A mismatch in the released half of a 0 is counted and retried; in the driven half nothing happens (R59). -/
theorem test_mismatch_released : answers .mismatch (sending 1 ownMark 7 99999980 base)
    (fun t => t.line.counters.mismatches == 1 && t.line.slots[(1 : TelegramClass)] == .waiting ownMark 7 &&
      t.line.quietFrom == some 100000020) = true := by decide +kernel
theorem test_mismatch_driven : answers .mismatch (sending 1 ownMark 7 99999999 base)
    (fun t => t.line.counters.mismatches == 0 && t.line.activity == .sending) = true := by decide +kernel

/-- A NEWS telegram of one record, on the line since a moment by the eighth attempt, that carries the flush target for which a read waits; one more
record is queued. -/
def newsSending (since : Nat) : State :=
  let n : NewsTelegram := ⟨4, 1, [{ (default : Record) with number := 2 }]⟩
  let s := (sending 2 ⟨63, .news n⟩ 8 since base).setNews
    { base.news with sender := .placed n, flushTarget := some 2, queue := [((default : Record), 0)], nextSequence := 5 }
  s.setReader (some { reading with mode := .newsWait, target := some 2 })

/-- R94, R105, R108: sent and discarded alike, the NEWS is counted, the read collects, and the sender places its next telegram. -/
theorem test_news_finishes :
    lineSound (newsSending 99980000) ∧ lineSound (newsSending 99999980) ∧
      (∀ c since, (c = .telegramSent ∧ since = 99980000) ∨ (c = .mismatch ∧ since = 99999980) →
        answers c (newsSending since) (fun t =>
          t.news.counters == { base.news.counters with
            sent := if since = 99980000 then 1 else 0, discarded := if since = 99980000 then 0 else 1 } &&
          t.news.flushTarget == none && t.reader == some reading &&
          t.news.sender == .placed ⟨5, 0, [default]⟩ && t.line.slots[(2 : TelegramClass)] == .waiting ⟨63, .news ⟨5, 0, [default]⟩⟩ 0) =
            true) := by
  refine ⟨?_, ?_, ?_⟩
  · exact test_lineSound' 2 ⟨63, .news ⟨4, 1, [{ (default : Record) with number := 2 }]⟩⟩ 8 99980000 _ rfl (by decide) (by decide)
      (by decide) (by simp)
  · exact test_lineSound' 2 ⟨63, .news ⟨4, 1, [{ (default : Record) with number := 2 }]⟩⟩ 8 99999980 _ rfl (by decide) (by decide)
      (by decide) (by simp)
  · rintro c since (⟨rfl, rfl⟩ | ⟨rfl, rfl⟩) <;> decide +kernel

/-- An answer of one part or more on the line, for a read or not, with a read that waits for its answer, or none. -/
def answerSending (parts : List (List Byte)) (forRead : Bool) (rd : Option Read) : State :=
  let s := sending 2 ⟨1, .answer 0 4 .accepted []⟩ 8 99991440 base
  (s.setQuery { s.query with answers := [⟨1, 0, 4, .accepted, parts, forRead, false⟩] }).setReader rd

/-- R94, R193, R194: the next part is offered; an ACCEPTED answer that leaves the queue lets its read collect. -/
theorem test_answer_finishes :
    let waits : Read := { reading with mode := .newsWait, answered := false }
    lineSound (answerSending [[]] true (some waits)) ∧ lineSound (answerSending [[], [7]] false none) ∧
      lineSound (sending 2 ⟨1, .answer 0 4 .accepted []⟩ 8 99991440 base) ∧
      answers .telegramSent (answerSending [[]] true (some waits)) (fun t =>
        t.query.answers == [] && t.reader == some reading && t.line.slots[(2 : TelegramClass)] == .vacant) = true ∧
      answers .telegramSent (answerSending [[]] true (some { waits with target := some 2 })) (fun t =>
        t.reader == some { reading with mode := .newsWait, target := some 2 }) = true ∧
      answers .telegramSent (answerSending [[], [7]] false none) (fun t =>
        t.query.answers.map Answer.parts == [[[7]]] &&
          t.line.slots[(2 : TelegramClass)] == .waiting ⟨1, .answer 0 4 .accepted [7]⟩ 0) = true := by
  refine ⟨?_, ?_, ?_, by decide +kernel, by decide +kernel, by decide +kernel⟩ <;>
    exact test_lineSound 2 ⟨1, .answer 0 4 .accepted []⟩ 8 99991440 rfl (by decide) (by decide) (by decide) (by simp)

/-- A HISTORY telegram on the line by its eighth attempt, and its read of the hold 1 of station 9. -/
def historySending (x : ReadMode) (ends : Bool) : State :=
  let s := (sending 3 ⟨1, .history 7 ends false 0 []⟩ 8 99991440 base).setMarks { base.marks with holds := [{ holdIn .closed 3 with inUse := true }] }
  s.setReader (some { reading with mode := x, ends := ends, source := .hold 9 1, remaining := if ends then 0 else 1, skipped := 2 })

/-- R96, R97: the last telegram of a read frees its hold, any other lets it collect on, and one that is READY is placed with its skipped count. -/
theorem test_history_finishes :
    (∀ x ends, lineSound (historySending x ends)) ∧
      answers .telegramSent (historySending .placed true) (fun t =>
        t.reader == none && t.marks.holds == [holdIn .closed 3] && t.line.slots[(3 : TelegramClass)] == .vacant &&
          t.line.counters.sent == 1 && t.line.fairness) = true ∧
      answers .telegramSent (historySending .placed false) (fun t =>
        t.reader.map Read.mode == some .collecting && t.line.slots[(3 : TelegramClass)] == .vacant) = true ∧
      answers .telegramSent (historySending .ready false) (fun t =>
        t.reader.map (fun rd => (rd.mode, rd.skipped)) == some (.placed, 0) &&
          t.line.slots[(3 : TelegramClass)] == .waiting ⟨1, .history 7 false true 2 []⟩ 0) = true := by
  refine ⟨fun x ends => ?_, by decide +kernel, by decide +kernel, by decide +kernel⟩
  exact test_lineSound 3 ⟨1, .history 7 ends false 0 []⟩ 8 99991440 rfl (by decide) (by decide) (by decide) (by simp)

/-! ### The field inputs -/

/-- Channel 3 in a mode, with a run whose age is at its filter time of 2 ms, or not yet. -/
def channelIn (m : ChannelMode) (pulse : Bool) (level : Level) (age chatter quiet : Nat) : State :=
  let c : Channel :=
    { Channel.atPowerOn with
      defn := { enabled := true, inverted := false, pulse := pulse, filterMs := 2 }
      mode := m, accepted := if m = .starting then none else some (if level = .active then .inactive else .active)
      run := some ⟨level, ⟨9990000, .agreed⟩, age⟩, chatterCount := chatter, quietCount := quiet }
  withChannel 3 c (base.setInput { base.input with nextSample := 100000000, sampledAt := some 100000000 })

theorem test_witness_sample : base.input.nextSample ≤ base.clock.osc ∧
    (channelIn .normal false .active 19 0 0).input.nextSample ≤ (channelIn .normal false .active 19 0 0).clock.osc := by
  decide

/-- A run of 19 sample periods, one short of the filter time, and a sample that reads the accepted level; and one that reads the run's. -/
theorem test_witness_reverted :
    let s := channelIn .normal false .active 19 0 0
    s.input.nextSample ≤ s.clock.osc ∧ s.input.channels[(3 : InputNo)].mode = .normal ∧
      s.input.channels[(3 : InputNo)].accepted = some .inactive ∧
      levelOf s.input.channels[(3 : InputNo)].defn ((0 : BitVec 64).getLsbD 3) = .inactive ∧
      s.input.channels[(3 : InputNo)].run = some ⟨.active, ⟨9990000, .agreed⟩, 19⟩ ∧ Level.active ≠ Level.inactive ∧
      19 < 10 * s.input.channels[(3 : InputNo)].defn.filterMs ∧
      levelOf s.input.channels[(3 : InputNo)].defn ((8 : BitVec 64).getLsbD 3) = .active := by decide +kernel

theorem test_witness_accepts :
    (∀ m, m = .normal ∨ m = .chattering ∨ m = .starting →
      (channelIn m true .inactive 20 19 0).input.channels[(3 : InputNo)].mode = m ∧
        accepts 3 ⟨.inactive, ⟨9990000, .agreed⟩, 20⟩ (channelIn m true .inactive 20 19 0)) ∧
      base.settings.chatterLimit = 20 := by
  refine ⟨?_, rfl⟩
  intro m h
  have late : ¬ secondOverdue (channelIn m true .inactive 20 19 0) := by
    rintro ⟨x, _, hx, _⟩; exact absurd (show (none : Option OscTime) = some x from hx) nofun
  refine ⟨?_, ?_, ?_, fun j hj => ⟨?_, fun hs => late hs.1⟩⟩
  · rcases h with rfl | rfl | rfl <;> decide +kernel
  · rcases h with rfl | rfl | rfl <;> decide +kernel
  · rcases h with rfl | rfl | rfl <;> decide +kernel
  · revert j; rcases h with rfl | rfl | rfl <;> decide +kernel

/-! The change that comes with the chatter count at 19 is recorded, and the next makes the channel CHATTERING (R70, R79). -/
theorem test_acceptance_belowLimit : answers (.acceptance 3) (channelIn .normal false .active 20 19 0)
    (fun t => t.input.channels[(3 : InputNo)].mode == .normal && t.journal.next == 4) = true := by decide +kernel
theorem test_acceptance_atLimit : answers (.acceptance 3) (channelIn .normal false .active 20 20 0)
    (fun t => t.input.channels[(3 : InputNo)].mode == .chattering && t.query.latched.getLsbD 4) = true := by decide +kernel

/-- Channel 2 has its record of the sample still to write, by its acceptance or because it settles at a second that has ended (R76). -/
theorem test_witness_lowerWaits :
    let c := (channelIn .chattering false .active 5 0 9).input.channels[(3 : InputNo)]
    let d := (channelIn .normal false .active 20 0 0).input.channels[(3 : InputNo)]
    let s := channelIn .normal false .active 20 0 0
    let u := (withChannel 2 c s).setInput { (withChannel 2 c s).input with secondFrom := some 90000000 }
    ((2 : InputNo) < 3) ∧ (withChannel 2 d s).input.channels[(2 : InputNo)].awaits = true ∧
      (secondOverdue u ∧ settling u.input.channels[(2 : InputNo)]) := by
  refine ⟨by decide, by decide +kernel, ⟨90000000, 100000000, rfl, rfl, by decide⟩, ?_⟩
  unfold settling; decide +kernel

/-- The tenth second in a row without a change ends. -/
theorem test_witness_second :
    let s := channelIn .chattering false .active 5 0 9
    let u := s.setInput { s.input with secondFrom := some 90000000 }
    u.input.secondFrom = some 90000000 ∧ u.input.sampledAt = some 100000000 ∧ 90000000 + 10000000 ≤ 100000000 ∧
      u.input.channels[(3 : InputNo)].mode = .chattering ∧ u.input.channels[(3 : InputNo)].changed = false ∧
      9 ≤ u.input.channels[(3 : InputNo)].quietCount ∧ u.input.channels[(3 : InputNo)].accepted = some .inactive ∧
      ∀ i : InputNo, base.input.channels[i].mode ≠ .chattering := by decide +kernel

/-- Channel 3 settles while channels 2 and 7 wait for their acceptance; and one that settles waits for its own. -/
theorem test_witness_secondTurns :
    let c := (channelIn .chattering false .active 5 0 9).input.channels[(3 : InputNo)]
    let d := (channelIn .normal false .active 20 0 0).input.channels[(3 : InputNo)]
    let s := withChannel 3 c (withChannel 7 d (withChannel 2 d base))
    settling s.input.channels[(3 : InputNo)] ∧ s.input.channels[(7 : InputNo)].awaits = true ∧
      s.input.channels[(2 : InputNo)].awaits = true ∧ s.input.channels[(3 : InputNo)].awaits = false ∧
      s.input.channels[(7 : InputNo)].run = some ⟨.active, ⟨9990000, .agreed⟩, 20⟩ ∧
      settling (channelIn .chattering false .active 20 0 9).input.channels[(3 : InputNo)] ∧
      (channelIn .chattering false .active 20 0 9).input.channels[(3 : InputNo)].awaits = true := by
  unfold settling; decide +kernel

/-- R76: SETTLED of input 3 comes before the INPUT of input 7 of the same sample, whose acceptance waits its turn. -/
theorem test_acceptance_afterSettled :
    let c := (channelIn .chattering false .active 5 0 9).input.channels[(3 : InputNo)]
    let d := (channelIn .normal false .active 20 0 0).input.channels[(3 : InputNo)]
    let s := withChannel 3 c (withChannel 7 d (channelIn .off false .active 0 0 0))
    answers (.acceptance 7) (s.setInput { s.input with secondFrom := some 90000000 }) (fun t => t.journal.next == 3) = true := by
  decide +kernel

/-! ### The journal, the news and the history reader -/

theorem test_tablesFit (s : State) (hj : s.journal = base.journal) (hq : s.news.queue = []) (hh : s.marks.holds = [])
    (hw : s.watch = []) (ha : s.query.answers = []) (hm : s.marks.outgoing = []) : tablesFit s := by
  refine ⟨?_, ?_, test_base_holdsFit s hh, ?_, ?_, ?_⟩
  · unfold journalFits; rw [hj]; decide
  · unfold queueFits; rw [hq]; decide
  · unfold watchFits; rw [hw]; decide
  · unfold answersFit; rw [ha]; decide
  · unfold marksFit; rw [hm]; decide

theorem test_witness_tablesFit : tablesFit base ∧ ∃ t, step (base.setPending [.lineBusy]) = .next t :=
  ⟨test_tablesFit _ rfl rfl rfl rfl rfl rfl, _, rfl⟩

theorem test_witness_holdsDated : holdsDated (base.setMarks { base.marks with holds := [holdIn .closed 2] }) ∧
    ∃ t, step ((base.setMarks { base.marks with holds := [holdIn .closed 2] }).setPending [.lineBusy]) = .next t :=
  ⟨by unfold holdsDated; decide +kernel, _, rfl⟩

theorem test_base_journalOrdered : journalOrdered base := by
  intro i r h
  match i, h with
  | 0, h => cases h; decide
  | 1, h => cases h; decide
  | 2, h => cases h; decide
  | n + 3, h => exact nomatch h

theorem test_witness_journal : journalFits base ∧ journalOrdered base ∧ base.journal.records[2]? = some { (default : Record) with number := 2 } ∧
    ∃ t, step (base.setPending [.lineBusy]) = .next t :=
  ⟨test_witness_tablesFit.1.1, test_base_journalOrdered, rfl, _, rfl⟩

/-- The announcement queue with a number of records, the oldest waiting since a moment, and the sender. -/
def queued (n since : Nat) (x : Sender) (s : State) : State :=
  s.setNews { s.news with queue := List.replicate n ((default : Record), since), sender := x }

theorem test_witness_write :
    base.marks.holds = [] ∧ (default : Record).kind ≠ .mark ∧
      (queued 63 0 (.formed ⟨0, 0, [default]⟩) base).news.queue.length < 64 ∧
      (queued 63 0 (.formed ⟨0, 0, [default]⟩) base).news.sender ≠ .idle ∧
      64 ≤ (queued 64 0 .idle base).news.queue.length ∧
      (base.setMarks { base.marks with holds := [holdIn .filling 1023] }).marks.holds = [holdIn .filling 1023] ∧
      (holdIn .filling 1023).state = .filling ∧ storeCount [holdIn .filling 1023] < 1024 := by decide +kernel

def aRecord : Record := draft .point ⟨9, .agreed⟩ 1 1 none false

/-- R105, R106, R109: a record that joins below the watermark of 4 leaves a sender in NONE; at it, for a flush target, and after 20 ms a telegram
is formed. -/
theorem test_write_senderLooks :
    let sender := fun s : State => (writeRecord aRecord s).news.sender
    let formed := fun (n : Nat) (records : List Record) =>
      Sender.placed ⟨0, 0, List.replicate n default ++ records⟩
    sender (queued 2 99999999 .idle base) = .idle ∧
      sender (queued 3 99999999 .idle base) = formed 3 [{ aRecord with number := 3 }] ∧
      sender (queued 1 99800000 .idle base) = formed 1 [{ aRecord with number := 3 }] ∧
      sender (base.setNews { base.news with flushTarget := some 3 }) = formed 0 [{ aRecord with number := 3 }] ∧ base.reader = none := by
  decide +kernel

/-- A full ring whose oldest record is number 7, and a record to write. -/
def fullRing : State :=
  base.setJournal
    { records := (List.range 4096).map fun i => { (default : Record) with number := 7 + BitVec.ofNat 32 i }, next := 4103 }

/-- A COPYING hold whose walk comes to a record next, with its window's start. -/
def walkingAt (n : JournalNo) (start : LineTime) : Hold := { holdIn .copying 0 with walk := some n, start := start }

theorem test_fullRing_ordered (hs : List Hold) : journalOrdered (fullRing.setMarks { fullRing.marks with holds := hs }) := by
  intro i r h
  have e : (fullRing.setMarks { fullRing.marks with holds := hs }).journal.records[i]? = fullRing.journal.records[i]? := rfl
  have o : oldestNumber (fullRing.setMarks { fullRing.marks with holds := hs }).journal = 7 := by
    simp [oldestNumber, fullRing, State.setMarks, State.setJournal]
  rw [e] at h
  simp only [fullRing, State.setJournal, List.getElem?_map, Option.map_eq_some_iff] at h
  obtain ⟨k, hk, rfl⟩ := h
  rw [List.getElem?_eq_some_iff] at hk
  obtain ⟨_, rfl⟩ := hk
  rw [o]; simp

/-- The oldest record is the one that a walk, and a read, is to visit next; its date lies in the window of one hold and before that of another. -/
theorem test_witness_replaces (h : Hold) :
    replaces 7 (fullRing.setMarks { fullRing.marks with holds := [h] }) ∧ replaces 7 (fullRing.setReader (some reading)) ∧
      (walkingAt 7 0).state = .copying ∧ (walkingAt 7 0).walk = some 7 ∧ (walkingAt 7 0).isPartial = false ∧
      (walkingAt 7 0).start ≤ (default : Record).date.time ∧ (default : Record).date.time ≤ (walkingAt 7 0).stop ∧
      ¬ (walkingAt 7 1).start ≤ (default : Record).date.time ∧ (walkingAt 8 0).walk ≠ some 7 := by
  have f : Config.journalSize ≤ fullRing.journal.records.length ∧ fullRing.journal.records.head?.map Record.number = some 7 := by
    decide +kernel
  exact ⟨f, f, by decide⟩

/-! A hold that loses a record of its window becomes PARTIAL, and its HOLD PARTIAL record replaces the next (R169); a read skips (R98). -/
theorem test_write_partial :
    let t := writeRecord aRecord (fullRing.setMarks { fullRing.marks with holds := [walkingAt 7 0] })
    (t.marks.holds == [{ walkingAt 9 0 with isPartial := true }] && t.journal.next == 4105) = true := by decide +kernel
theorem test_write_skips :
    (writeRecord aRecord (fullRing.setReader (some { reading with next := 7 }))).reader =
      some { reading with next := 8, remaining := 2, skipped := 1 } := by decide +kernel

theorem test_witness_batch :
    let s := queued 9 99800000 .idle base
    s.news.queue = ((default : Record), 99800000) :: List.replicate 8 (default, 99800000) ∧
      99800000 + 200000 ≤ s.clock.osc ∧ s.news.sender = .idle ∧ s.line.running = true ∧
      s.line.slots[(2 : TelegramClass)] = .vacant ∧ s.query.answers = [] ∧
      (waitingIn 2 ⟨1, .answer 0 1 .ok []⟩ s).line.slots[(2 : TelegramClass)] ≠ .vacant := by decide +kernel

/-- An answer that waits in the queue. -/
def anAnswer : Answer := ⟨1, 0, 12, .ok, [[8]], false, false⟩

theorem test_witness_batchTurns :
    let s := queued 1 99800000 .idle base
    let u := (s.setQuery { s.query with answers := [anAnswer] }).setLine { s.line with newsFilledLast := true }
    u.line.slots[(2 : TelegramClass)] = .vacant ∧ u.query.answers = anAnswer :: [] ∧ u.line.newsFilledLast = true := by decide

theorem test_hearing_receiving : receiving 1 hearing := test_hearing_takesQuery.1

/-- An INPUT record heard of input 3. -/
def heardRecord : Record := { (default : Record) with subject := 3, code := 1 }

/-- A receiver with entries of station 1 and another, whose last NEWS of station 1 had a sequence. -/
def watching (last : Option (BitVec 16)) : State :=
  let s := hearing.setWatch [⟨1, 3, 2, .known .inactive ⟨5, .agreed⟩⟩, ⟨1, 4, 1, .uncertain⟩, ⟨2, 3, 1, .known .active ⟨7, .ref⟩⟩]
  s.setNews { s.news with lastSequence := setAt s.news.lastSequence 1 last }

theorem test_witness_news :
    receiving 1 (watching none) ∧ (watching none).news.lastSequence[(1 : Station)] = none ∧
      (watching (some 65535)).news.lastSequence[(1 : Station)] = some ((0 : BitVec 16) - 1) ∧
      (∀ e : EntryNo, (watching none).checks[e] = none) ∧ heardRecord.subject.toNat = (3 : InputNo).val ∧
      (conditionFrom heardRecord).isSome = true ∧ 1 ≤ (List.replicate 8 heardRecord).length ∧
      (List.replicate 8 heardRecord).length ≤ 8 :=
  ⟨⟨⟨⟨9999000, .agreed⟩, rfl⟩, by decide⟩, by decide +kernel⟩

/-! R111, R114: out of order, the entry that no record names becomes UNCERTAIN, and the named one takes its last record. -/
theorem test_news_gap : answers (.news 1 7 0 [{ heardRecord with subject := 4 }]) (watching (some 7))
    (fun t => (t.watch.map WatchEntry.condition) ==
      [.uncertain, .known .active heardRecord.date, .known .active ⟨7, .ref⟩]) = true := by decide +kernel
theorem test_news_lastRecord : answers (.news 1 7 0 [heardRecord, { heardRecord with code := 0 }]) (watching none)
    (fun t => (t.watch.map WatchEntry.condition) ==
      [.known .inactive heardRecord.date, .uncertain, .known .active ⟨7, .ref⟩]) = true := by decide +kernel

/-- R114: an active check entry of an input whose watch entry a gap makes UNCERTAIN is told of it; one of an input that was UNCERTAIN is not. -/
theorem test_witness_newsReports :
    let entry : InputNo → CheckEntry := fun i =>
      { phase := .opened, subject := .input 1 i .any, due := 9000000, openAt := 8000000, closeAt := 20000000, watchBefore := 1
        watchAfter := 11, earlyTolerance := 0, lateTolerance := 1, period := 0, repeatsLeft := 0, settle := 2, markOnMiss := false
        view := .known, doubt := false, held := none, deadline := some 22000000, last := none }
    let views := fun i : InputNo => answers (.news 1 7 0 [{ heardRecord with subject := 9 }])
      ((watching (some 7)).setChecks (setAt base.checks 8 (some (entry i))))
      (fun t => t.checks[(8 : EntryNo)].map (fun c => (c.view, c.doubt)) == some (.uncertain, true))
    views 3 = true ∧ views 4 = false := by decide +kernel

/-- The arguments of a HISTORY: a source, a hold's station and number, dates 0 to a last one, every kind. -/
def historyArgs (source station number : Byte) (last : Byte) : List Byte :=
  [source, station, number, 0, 0, 0, 0, 0, 0, 0, 0, 0, 0, 0, 0, 0, last, 7, 255]

/-- A telegram being received by a station that has one hold. -/
def hearingHeld : State := hearing.setMarks { hearing.marks with holds := [holdIn .filling 2] }

theorem test_witness_history :
    takesQuery 1 hearingHeld ∧ (historyArgs 0 0 0 9).length = 19 ∧ (2 : Nat) ≤ (byteAt (historyArgs 2 0 0 9) 0).toNat ∧
      numberAt (historyArgs 0 0 0 9) 10 7 = 9 ∧ (byteAt (historyArgs 1 9 1 0) 0).toNat = 1 ∧
      numberAt (historyArgs 1 9 1 0) 3 7 ≤ numberAt (historyArgs 1 9 1 0) 10 7 ∧ hearingHeld.reader = none ∧
      (hearingHeld.setReader (some reading)).reader.isSome = true ∧
      (holdIn .filling 2).mark.originator.val = (byteAt (historyArgs 1 9 1 0) 1).toNat ∧
      (holdIn .filling 2).mark.number = byteAt (historyArgs 1 9 1 0) 2 ∧
      (∀ h ∈ hearingHeld.marks.holds,
        ¬ (h.mark.originator.val = (byteAt (historyArgs 1 9 2 0) 1).toNat ∧ h.mark.number = byteAt (historyArgs 1 9 2 0) 2)) :=
  ⟨⟨⟨⟨⟨9999000, .agreed⟩, rfl⟩, by decide⟩, by decide⟩, by decide +kernel⟩

/-- R107: the flush target of a HISTORY: the newest record queued, and with none queued the last of the telegram formed or on the line. -/
theorem test_history_flushes :
    let target := fun s : State => answers (.history 1 0 (historyArgs 0 0 0 9)) s
      (fun t => t.news.flushTarget == some 2 && t.reader.map Read.target == some (some 2))
    let n : NewsTelegram := ⟨4, 0, [default, { (default : Record) with number := 2 }]⟩
    let one := hearing.setNews { hearing.news with queue := [({ (default : Record) with number := 2 }, 99999999)] }
    target one = true ∧ target (queued 0 0 (.formed n) hearing) = true ∧ target (queued 0 0 (.placed n) hearing) = true ∧
      answers (.history 1 0 (historyArgs 0 0 0 9)) one (fun t => t.news.queue == [] && t.news.nextSequence == 1) = true ∧
      answers (.history 1 0 (historyArgs 0 0 0 9)) hearing
        (fun t => t.news.flushTarget == none && t.reader.map Read.target == some none) = true := by decide +kernel

theorem test_witness_cancel :
    let s := hearing.setReader (some reading)
    takesQuery 1 hearing ∧ takesQuery 1 s ∧ takesQuery 2 s ∧ hearing.reader = none ∧ s.reader = some reading ∧
      reading.requester = 1 ∧ reading.requester ≠ 2 :=
  ⟨test_hearing_takesQuery, ⟨⟨⟨⟨9999000, .agreed⟩, rfl⟩, by decide⟩, by decide⟩,
    ⟨⟨⟨⟨9999000, .agreed⟩, rfl⟩, by decide⟩, by decide⟩, by decide⟩

theorem test_witness_historyVisit :
    let s := base.setReader (some reading)
    let last := { reading with next := 2, position := 2, remaining := 1, collected := List.replicate 7 (default : Record) }
    let held := { reading with source := .hold 9 1, position := 1 }
    s.reader = some reading ∧ reading.mode = .collecting ∧ 0 < reading.remaining ∧
      (recordAt s.journal reading.next).isSome = true ∧ (recordAt s.journal last.next).isSome = true ∧
      last.collected.length = 7 ∧ ((scopeOf hearingHeld held.source)[held.position]?).isSome = true ∧
      s.line.slots[(3 : TelegramClass)] = .vacant ∧
      (waitingIn 3 ⟨1, .history 0 true false 0 []⟩ s).line.slots[(3 : TelegramClass)] ≠ .vacant := by decide +kernel

/-! ### The points -/

/-- Point 2: its references are the inputs 10 to 13 of station 9. -/
def pointDef (mark : Bool) (interval : Nat) : PointDef :=
  { refs := ⟨(9, 10), (9, 11), (9, 12), (9, 13)⟩, startMs := 1000, strokeMs := 5000, interval := interval, markOnFailure := mark }

/-- Point 2 in a state, every reference known INACTIVE but one, with a trend of 4 samples of 4 s toward reverse. -/
def pointIn (x : PointState) (mark : Bool) (active : Ref) (s : State) : State :=
  let view := fun r : Ref => Condition.known (if r = active then .active else .inactive) ⟨1000, .agreed⟩
  s.setPoints (setAt s.points 2
    { Point.atPowerOn with
      defn := some (pointDef mark 1000), state := x, service := 16777215, trendReverse := ⟨some 4000, 4⟩
      views := ⟨view .normalCall, view .reverseCall, view .normalDetection, view .reverseDetection⟩ })

/-- A call of 1 s before, whose start deadline is now; a movement whose stroke deadline is now. -/
def calledPoint (mark : Bool) : State := pointIn (.called .reverse ⟨9000000, .agreed⟩ 10000000) mark .normalDetection base
def movingPoint (mark : Bool) : State :=
  pointIn (.moving .reverse ⟨4900000, .agreed⟩ ⟨5000000, .agreed⟩ 10000000) mark .reverseCall base

theorem test_noEntries (s : State) (p : PointNo) (h : s.checks = Vector.replicate 256 none) : entriesOfPoint s p = [] := by
  unfold entriesOfPoint; simp [h]

theorem test_witness_pointDeadlines (mark : Bool) :
    (calledPoint mark).points[(2 : PointNo)].defn = some (pointDef mark 1000) ∧
      10000000 ≤ (calledPoint mark).clock.lineTime ∧
      (calledPoint mark).points[(2 : PointNo)].state = .called .reverse ⟨9000000, .agreed⟩ 10000000 ∧
      (movingPoint mark).points[(2 : PointNo)].defn = some (pointDef mark 1000) ∧
      (movingPoint mark).points[(2 : PointNo)].state =
        .moving .reverse ⟨4900000, .agreed⟩ ⟨5000000, .agreed⟩ 10000000 ∧
      entriesOfPoint (calledPoint mark) 2 = [] ∧ entriesOfPoint (movingPoint mark) 2 = [] := by
  refine ⟨?_, ?_, ?_, ?_, ?_, test_noEntries _ _ rfl, test_noEntries _ _ rfl⟩ <;> cases mark <;> decide +kernel

/-- An INPUT record of a level and a time. -/
def inputAt (code : Byte) (time : Nat) : Record := { (default : Record) with code := code, date := ⟨time, .agreed⟩ }

theorem test_witness_movements :
    let standing := pointIn (.detected .normal) false .normalDetection base
    let d := pointDef false 1000
    conditionFrom (inputAt 1 9500000) = some (.known .active ⟨9500000, .agreed⟩) ∧
      conditionFrom (inputAt 0 9500000) = some (.known .inactive ⟨9500000, .agreed⟩) ∧
      d.naming 9 11 = [Side.reverse.call] ∧ d.naming 9 12 = [Side.normal.detection] ∧ d.naming 9 13 = [Side.reverse.detection] ∧
      standing.points[(2 : PointNo)].state = .detected .normal ∧
      standing.points[(2 : PointNo)].views.at .reverseCall = .known .inactive ⟨1000, .agreed⟩ ∧
      standing.clock.lineTime < 9500000 + d.startMs * 1000 ∧
      (calledPoint false).points[(2 : PointNo)].views.at .normalDetection = .known .active ⟨1000, .agreed⟩ ∧
      (calledPoint false).clock.lineTime < 9500000 + d.strokeMs * 1000 ∧
      (movingPoint false).points[(2 : PointNo)].views.at .reverseDetection = .known .inactive ⟨1000, .agreed⟩ ∧
      (movingPoint false).points[(2 : PointNo)].views.at .normalDetection = .known .inactive ⟨1000, .agreed⟩ ∧
      (movingPoint false).points[(2 : PointNo)].service ≤ 16777215 := by decide +kernel

/-- Point 2 in a state, the named references ACTIVE, the others INACTIVE, and those not yet known. -/
def viewing (x : PointState) (active unknown : List Ref) : State :=
  let view := fun r : Ref =>
    if r ∈ unknown then Condition.neverHeard else .known (if r ∈ active then .active else .inactive) ⟨1000, .agreed⟩
  base.setPoints (setAt base.points 2
    { Point.atPowerOn with
      defn := some (pointDef false 1000), state := x, startFailed := true
      views := ⟨view .normalCall, view .reverseCall, view .normalDetection, view .reverseDetection⟩ })

/-- What point 2 does at a record of a moment: its state, and the codes of the outcomes it writes. -/
def pointDoes (i : InputNo) (code : Byte) (s : State) (x : PointState) (outcomes : List Nat) (time : Nat := 9500000) : Bool :=
  let t := deliverToPoint 9 i (inputAt code time) 2 s
  t.points[(2 : PointNo)].state == x && (t.journal.records.drop 3).map (fun r => r.code.toNat) == outcomes

/-- Each clause of what breaks a movement off, restores a point or makes it KNOWN (R122, R123, R125–R127, R132). -/
theorem test_witness_breaksOff :
    let call : Date := ⟨1000, .agreed⟩
    pointDoes 12 0 (viewing (.detected .normal) [.reverseCall, .normalDetection] [])
        (.moving .reverse call ⟨9500000, .agreed⟩ 14500000) [] = true ∧
      pointDoes 12 0 (viewing (.detected .normal) [.normalDetection] []) .lost [6] = true ∧
      pointDoes 13 1 (viewing (.detected .normal) [.normalDetection] []) .both [8] = true ∧
      pointDoes 11 0 (viewing (.called .reverse call 9600000) [.reverseCall, .normalDetection] []) (.detected .normal) [] = true ∧
      pointDoes 13 1 (viewing (.called .reverse call 9600000) [.reverseCall, .normalDetection] []) .both [8] = true ∧
      pointDoes 12 1 (viewing .lost [] []) (.detected .normal) [7] = true ∧
      pointDoes 12 0 (viewing .both [.normalDetection, .reverseDetection] []) (.detected .reverse) [7] = true ∧
      pointDoes 12 1 (viewing .unknown [] [.normalDetection, .normalCall]) .unknown [] = true ∧
      pointDoes 12 1 (viewing .unknown [] [.normalDetection]) (.detected .normal) [10] = true ∧
      pointDoes 12 1 (viewing .unknown [.reverseDetection] [.normalDetection]) .both [10] = true ∧
      pointDoes 12 0 (viewing .unknown [] [.normalDetection]) .lost [10] = true ∧
      pointDoes 12 0 (viewing .lost [] []) .lost [] = true := by decide +kernel

/-- Point 2 with both detections on input 12 (R125). -/
def doubled (s : State) : State :=
  let x := s.points[(2 : PointNo)]
  s.setPoints (setAt s.points 2 { x with defn := some { pointDef false 1000 with refs := ⟨(9, 10), (9, 11), (9, 12), (9, 12)⟩ } })

/-- A call and a loss whose deadlines line time has reached fall due at once (R133); one input that is both detections acts as each in turn (R125);
a call that changes in DETECTED to the side it stands on, or in LOST, makes no transition (R126, R132). -/
theorem test_witness_lateAndDouble :
    let call : Date := ⟨1000, .agreed⟩
    let normal := viewing (.detected .normal) [.normalDetection] []
    let both := doubled (viewing .both [.normalDetection, .reverseDetection] [])
    pointDoes 11 1 normal (.called .reverse ⟨9000001, .agreed⟩ 10000001) [] 9000001 = true ∧
      pointDoes 11 1 normal (.detected .normal) [5] 9000000 = true ∧
      pointDoes 12 0 (viewing (.detected .normal) [.reverseCall, .normalDetection] [])
        (.overtime .reverse call ⟨5000000, .agreed⟩) [4] 5000000 = true ∧
      pointDoes 12 0 (viewing (.called .reverse call 9600000) [.reverseCall, .normalDetection] [])
        (.overtime .reverse call ⟨5000000, .agreed⟩) [4] 5000000 = true ∧
      referencesOf { pointDef false 1000 with refs := ⟨(9, 10), (9, 11), (9, 12), (9, 12)⟩ } 9 12 =
        [.normalDetection, .reverseDetection] ∧
      pointDoes 12 0 both .lost [7, 6] = true ∧ pointDoes 12 1 (doubled (viewing .lost [] [])) .both [7, 8] = true ∧
      pointDoes 10 1 normal (.detected .normal) [] = true ∧ pointDoes 10 1 (viewing .lost [] []) .lost [] = true ∧
      (deliverToPoint 9 10 (inputAt 1 9500000) 2 normal).points[(2 : PointNo)].startFailed = false ∧
      normal.points[(2 : PointNo)].startFailed = true := by decide +kernel

/-- A point that moves and one that is UNKNOWN are sound. -/
theorem test_witness_pointsSound :
    pointsSound (movingPoint false) ∧ pointsSound base ∧ quietWhileReading (movingPoint false) ∧
      ∃ t, step ((movingPoint false).setPending [.lineBusy]) = .next t := by
  have rest : ∀ p : PointNo, base.points[p].sound := fun p => by
    have e : base.points[p] = Point.atPowerOn := by simp [base, State.reset]
    rw [e]; exact ⟨fun _ => rfl, nofun⟩
  refine ⟨fun p => ?_, rest, fun h => absurd rfl h, _, rfl⟩
  by_cases h : p = 2
  · subst h
    refine ⟨nofun, fun d hd => ?_⟩
    cases hd
    refine ⟨⟨nofun, fun ⟨ref, h⟩ => ?_⟩, rfl, ⟨_, rfl⟩, ⟨_, rfl⟩⟩
    cases ref <;> exact absurd ⟨_, rfl⟩ (h _)
  · have e : (movingPoint false).points[p] = base.points[p] :=
      Vector.getElem_set_ne (by decide) p.isLt fun hh => h (Fin.ext hh.symm)
    rw [e]; exact rest p

/-- A definition that asks for a mark, of a point that loses its detection and of one that shows both (R139). -/
def marking (s : State) : State := s.setPoints (setAt s.points 2 { s.points[(2 : PointNo)] with defn := some (pointDef true 1000) })

theorem test_witness_pointMarks :
    (marking (viewing (.detected .normal) [.normalDetection] [])).points[(2 : PointNo)].defn = some (pointDef true 1000) ∧
      (pointDef true 1000).markOnFailure = true ∧ (pointDef false 1000).markOnFailure = false ∧
      ((deliverToPoint 9 12 (inputAt 0 9500000) 2 (marking (viewing (.detected .normal) [.normalDetection] []))).marks.outgoing =
        [⟨5, 0, 0, 2, 9500000, 120, 60⟩]) ∧
      ((deliverToPoint 9 13 (inputAt 1 9500000) 2 (marking (viewing (.detected .normal) [.normalDetection] []))).marks.outgoing =
        [⟨5, 0, 0, 2, 9500000, 120, 60⟩]) := by decide +kernel

/-- What makes a point UNKNOWN: a CHATTER record of an input, and a report of its watch entry (R122). -/
theorem test_witness_losesSight :
    conditionFrom { inputAt 0 9500000 with kind := .chatter } = some .chattering ∧
      (viewing .both [] []).points[(2 : PointNo)].state ≠ .unknown ∧
      (deliverToPoint 9 12 { inputAt 0 9500000 with kind := .chatter } 2 (viewing .both [] [])).points[(2 : PointNo)].state =
        .unknown ∧
      (reportToPoint 9 12 2 (viewing .both [] [])).points[(2 : PointNo)].state = .unknown := by decide +kernel

/-! The slow test compares 4 strokes with 5 trends (R136): against a trend of 4 s a stroke of 5,000 ms is not slow, 5,001 ms is. -/
theorem test_slow_atLimit :
    ((deliverToPoint 9 13 (inputAt 1 10000000) 2 (movingPoint false)).points[(2 : PointNo)].lastOutcome.map Prod.fst) =
      some .moved := by decide +kernel
theorem test_slow_aboveLimit :
    ((deliverToPoint 9 13 (inputAt 1 10001000) 2 (movingPoint false)).points[(2 : PointNo)].lastOutcome.map Prod.fst) =
      some .movedSlow := by decide +kernel

/-- Point 2 in MOVING with a service counter and an interval. -/
def counted (service interval : Nat) : State :=
  let s := movingPoint false
  s.setPoints (setAt s.points 2 { s.points[(2 : PointNo)] with service := service, defn := some (pointDef false interval) })

/-- What the counter of point 2 is after its movement ends, its service-due flag, and the values of the SERVICE records written. -/
def countsTo (s : State) : Nat × Bool × List (BitVec 32) :=
  let t := deliverToPoint 9 13 (inputAt 1 10000000) 2 s
  (t.points[(2 : PointNo)].service, t.points[(2 : PointNo)].serviceDue,
    (t.journal.records.filter fun r => r.kind == .service).map Record.value)

/-- R137: the counter at 2^24 − 2, and at 2^24 − 1 with an interval and without. -/
theorem test_witness_wrap :
    (counted 16777214 1000).points[(2 : PointNo)].service < 16777215 ∧
      (counted 16777215 0).points[(2 : PointNo)].service = 16777215 ∧ (pointDef false 0).interval = 0 ∧
      0 < (pointDef false 1000).interval ∧ countsTo (counted 16777214 1000) = (16777215, false, []) ∧
      countsTo (counted 16777215 1000) = (0, true, [1000]) ∧ countsTo (counted 16777215 0) = (0, false, []) := by decide +kernel

theorem test_witness_overtime :
    let s := pointIn (.overtime .reverse ⟨4900000, .agreed⟩ ⟨5000000, .agreed⟩) false .reverseCall base
    s.points[(2 : PointNo)].state = .overtime .reverse ⟨4900000, .agreed⟩ ⟨5000000, .agreed⟩ ∧
      s.points[(2 : PointNo)].defn = some (pointDef false 1000) ∧ s.points[(2 : PointNo)].service ≤ 16777215 ∧
      (∀ side : Side, s.points[(2 : PointNo)].views.at side.detection = .known .inactive ⟨1000, .agreed⟩) ∧
      (pointDef false 1000).naming 9 12 = [Side.normal.detection] ∧ (pointDef false 1000).naming 9 10 = [Side.normal.call] := by
  refine ⟨by decide +kernel, by decide +kernel, by decide +kernel, ?_, by decide +kernel, by decide +kernel⟩
  intro side; cases side <;> decide +kernel

theorem test_witness_service :
    let s := pointIn (.detected .normal) false .normalDetection hearing
    takesQuery 1 s ∧ s.config.state ≠ .unconfigured ∧ s.points[(31 : PointNo)].defn = none ∧
      s.points[(2 : PointNo)].defn = some (pointDef false 1000) ∧ (2 : PointNo).val = (2 : Byte).toNat ∧
      32 ≤ (32 : Byte).toNat ∧ (31 : PointNo).val = (31 : Byte).toNat :=
  ⟨⟨⟨⟨⟨9999000, .agreed⟩, rfl⟩, by decide⟩, by decide⟩, by decide +kernel⟩

/-! ### The timetable checks -/

/-- A check entry due at 9 s, its window from 8 s to 9.999 s or later, its decision due then. -/
def entryIn (x : CheckPhase) (held : Option Date) (openAt dueTime after period : Nat) (deadline : Option LineTime) : CheckEntry :=
  { phase := x, subject := .input 9 10 .toActive, due := dueTime, openAt := openAt, closeAt := dueTime + after * 1000000
    watchBefore := 1, watchAfter := after, earlyTolerance := 0, lateTolerance := 1, period := period, repeatsLeft := 0
    settle := 2, markOnMiss := false, view := .known, doubt := false, held := held, deadline := deadline, last := none }

def withEntry (c : CheckEntry) (s : State) : State := s.setChecks (setAt s.checks 200 (some c))

def waitingEntry : CheckEntry := entryIn .waiting none 10000000 11000000 1 0 (some 10000000)
def passedEntry : CheckEntry := entryIn .waiting none 6000000 7000000 1 0 (some 6000000)
def openEntry : CheckEntry := entryIn .opened none 6000000 7000000 1 60 (some 10000000)
def matchedEntry : CheckEntry := entryIn .matched (some ⟨8000000, .agreed⟩) 6000000 7000000 1 0 (some 10000000)

theorem test_entries_sound : waitingEntry.sound ∧ passedEntry.sound ∧ openEntry.sound ∧ matchedEntry.sound := by
  unfold CheckEntry.sound
  simp [waitingEntry, passedEntry, openEntry, matchedEntry, entryIn]

theorem test_witness_opening :
    waitingEntry.sound ∧ passedEntry.sound ∧ (withEntry waitingEntry base).checks[(200 : EntryNo)] = some waitingEntry ∧
      waitingEntry.openAt ≤ base.clock.lineTime ∧ base.clock.lineTime < waitingEntry.closeAt + waitingEntry.settle * 1000000 ∧
      passedEntry.openAt ≤ base.clock.lineTime ∧
      passedEntry.closeAt + passedEntry.settle * 1000000 = base.clock.lineTime ∧ openEntry.phase = .opened ∧
      openEntry.held = none := by
  refine ⟨test_entries_sound.1, test_entries_sound.2.1, ?_⟩
  decide +kernel

/-- Both ends of the window match, and an earlier match takes the place of a later one (R152). -/
theorem test_consider_window :
    ([⟨8000000, .agreed⟩, ⟨5999999, .agreed⟩, ⟨6000000, .agreed⟩, ⟨7000000, .agreed⟩].foldl CheckEntry.consider openEntry).held =
      some ⟨6000000, .agreed⟩ ∧
      (openEntry.consider ⟨8000001, .agreed⟩).held = none := by decide

/-- An OPEN entry whose decision is still to come, of an input and of a point. -/
def openOf (x : Subject) : CheckEntry := { openEntry with subject := x, settle := 5, deadline := some 12000000 }

/-- A match held, a match whose decision time has passed, a CHATTER record, and a MOVED of the point into the target (R145, R150). -/
theorem test_witness_deliveries :
    let c := openOf (.input 9 10 .toActive)
    let q := openOf (.point 2 .reverse)
    (deliverInputToCheck 9 10 (inputAt 1 7000000) 200 (withEntry c base)).checks[(200 : EntryNo)] =
        some { c with phase := .matched, held := some ⟨7000000, .agreed⟩, deadline := some 12000000 } ∧
      (deliverInputToCheck 9 10 (inputAt 1 5999999) 200 (withEntry c base)).checks[(200 : EntryNo)] = some c ∧
      (deliverInputToCheck 9 10 (inputAt 3 7000000) 200 (withEntry c base)).checks[(200 : EntryNo)] = some c ∧
      (deliverInputToCheck 9 10 { inputAt 0 7000000 with kind := .chatter } 200 (withEntry c base)).checks[(200 : EntryNo)] =
        some { c with view := .chattering, doubt := true } ∧
      (reportToCheck 9 10 200 (withEntry c base)).checks[(200 : EntryNo)] = some { c with view := .uncertain, doubt := true } ∧
      (deliverInputToCheck 9 10 (inputAt 1 8000000) 200 (withEntry openEntry base)).journal.next = 4 ∧
      (deliverPointToCheck 2 .moved (.detected .reverse) ⟨7000000, .agreed⟩ 200 (withEntry q base)).checks[(200 : EntryNo)] =
        some { q with phase := .matched, held := some ⟨7000000, .agreed⟩, deadline := some 12000000 } ∧
      (deliverPointToCheck 2 .known (.detected .reverse) ⟨7000000, .agreed⟩ 200 (withEntry q base)).checks[(200 : EntryNo)] =
        some q := by decide +kernel

theorem test_witness_decision :
    openEntry.sound ∧ matchedEntry.sound ∧ openEntry.phase = .opened ∧ matchedEntry.phase = .matched ∧
      (withEntry openEntry base).checks[(200 : EntryNo)] = some openEntry ∧
      (withEntry matchedEntry base).checks[(200 : EntryNo)] = some matchedEntry ∧
      openEntry.deadline = some 10000000 ∧ matchedEntry.deadline = some 10000000 ∧ 10000000 ≤ base.clock.lineTime ∧
      matchedEntry.held = some ⟨8000000, .agreed⟩ ∧ openEntry.held = none ∧
      base.clock.lineTime < openEntry.openAt + openEntry.period * 1000000 ∧ matchedEntry.period = 0 := by
  refine ⟨test_entries_sound.2.2.1, test_entries_sound.2.2.2, ?_⟩
  decide +kernel

/-- R153: a deviation of 1 s exactly, with a late tolerance of 1 s, is on time. -/
theorem test_decision_atTolerance : answers (.checkDecision 200) (withEntry matchedEntry base)
    (fun t => (t.checks[(200 : EntryNo)].bind CheckEntry.last).map LastCheck.outcome == some .onTime) = true := by decide +kernel

/-- A station that watches the input that the entries name, with one reference. -/
def watched : State := base.setWatch [⟨9, 10, 1, .neverHeard⟩]

/-- A one-shot entry, one of one repeat and one that goes on, MISSED with a mark; the first two are DONE and give their reference back (R156,
R157, R116). -/
theorem test_witness_missed :
    (∀ period repeats, (period = 0 ∧ repeats = 0) ∨ (period = 60 ∧ repeats = 1) →
      let c := { openEntry with period := period, repeatsLeft := repeats, markOnMiss := true }
      c.deadline = some 10000000 ∧ (c.period = 0 ∨ c.repeatsLeft = 1) ∧ (9 : Station) ≠ own watched ∧
        answers (.checkDecision 200) (withEntry c watched) (fun t =>
          t.watch == [] && t.marks.outgoing == [⟨5, 0, 1, 200, 8000000, 600, 60⟩] &&
            t.checks[(200 : EntryNo)].map CheckEntry.phase == some .done) = true) ∧
      answers (.checkDecision 200) (withEntry { openEntry with markOnMiss := true } watched) (fun t =>
        t.watch == watched.watch && t.marks.own == 1 && t.checks[(200 : EntryNo)].map CheckEntry.phase == some .waiting) = true := by
  refine ⟨?_, by decide +kernel⟩
  rintro period repeats (⟨rfl, rfl⟩ | ⟨rfl, rfl⟩) <;> decide +kernel

theorem test_witness_entriesSound : entriesSound base ∧ ∃ t, step (base.setPending [.lineBusy]) = .next t :=
  ⟨test_base_entriesSound _ rfl, _, rfl⟩

/-- The arguments of a POST CHECK of entry 200: kind, station, input or point, edge or side, due second, watch after, period. -/
def postArgs (kind station n edge due period : Byte) : List Byte :=
  [200, kind, station, n, edge, 0, 0, 0, 0, due, 0, 1, 0, 1, 0, 0, 0, 1, 0, 0, period, 0, 0]

theorem test_witness_postCheck :
    let full := hearing.setWatch (List.replicate 48 ⟨9, 11, 1, .neverHeard⟩)
    let local0 := postArgs 0 5 10 0 12 0
    let remote := postArgs 0 9 10 0 12 0
    takesQuery 1 hearing ∧ remote.length = 23 ∧ hearing.config.state ≠ .unconfigured ∧ (postingOf remote).entry = 200 ∧
      hearing.checks[(200 : EntryNo)] = none ∧ openEntry.phase ≠ .done ∧
      (postingOf (postArgs 2 9 10 0 12 0)).subject = none ∧
      (postingOf local0).subject = some (.input 5 10 .toActive) ∧ subjectRefused hearing (.input 5 10 .toActive) = true ∧
      (postingOf remote).subject = some (.input 9 10 .toActive) ∧ subjectRefused hearing (.input 9 10 .toActive) = false ∧
      (postingOf remote).dueSecond ≤ 86399 ∧ hearing.clock.cls ≠ .unset ∧ (inState .unset hearing).clock.cls = .unset ∧
      (postingOf (postArgs 0 9 10 0 6 0)).closeAt + hearing.settings.settle * 1000000 < hearing.clock.lineTime ∧
      hearing.clock.lineTime = (postingOf (postArgs 0 9 10 0 7 0)).closeAt + hearing.settings.settle * 1000000 ∧
      remotePair hearing (.input 9 10 .toActive) = some (9, 10) ∧ referenceFits 9 10 full.watch = false ∧
      referenceFits 9 10 hearing.watch = true ∧ hearing.clock.lineTime < (postingOf remote).openAt ∧
      (postingOf (postArgs 0 9 10 0 8 0)).openAt ≤ hearing.clock.lineTime ∧
      (postingOf (postArgs 0 9 10 0 1 60)).period = 60 :=
  ⟨test_hearing_takesQuery, by decide +kernel⟩

/-- R113, R116: a watch entry with the one reference that an OPEN entry holds; none before a read has ended. -/
theorem test_witness_watchAgrees :
    watchAgrees (withEntry openEntry watched) ∧ quietWhileReading (withEntry openEntry watched) ∧ watchAgrees State.reset ∧
      ∃ t, step ((withEntry openEntry watched).setPending [.lineBusy]) = .next t := by
  refine ⟨⟨fun h => absurd rfl h, fun _ => ⟨by decide, by decide +kernel, ?_⟩⟩, fun h => absurd rfl h,
    ⟨fun _ => rfl, fun h => absurd h (by decide)⟩, _, rfl⟩
  rintro x - (⟨p, hp⟩ | ⟨e, he⟩)
  · have h0 : (withEntry openEntry watched).points[p].defn = none := by
      simp [withEntry, watched, base, State.setChecks, State.setWatch, State.reset, Point.atPowerOn]
    unfold namesPair at hp; rw [h0] at hp; exact absurd hp nofun
  · by_cases h : e = 200
    · subst h
      exact ⟨⟨9, 10, 1, .neverHeard⟩, by decide, of_decide_eq_true he⟩
    · have h0 : (withEntry openEntry watched).checks[e] = none :=
        (Vector.getElem_set_ne (by decide) e.isLt fun hh => h (Fin.ext hh.symm)).trans (by simp [watched, base, State.setWatch, State.reset])
      unfold holdsPair at he; rw [h0] at he; exact absurd he nofun

/-- The conditions of a subject at its posting (R149). -/
theorem test_witness_subjects :
    let chattering := withChannel 3 { (channelIn .chattering false .active 0 0 0).input.channels[(3 : InputNo)] with mode := .chattering } hearing
    subjectBarred hearing (.input 5 10 .toActive) ∧ ¬ subjectBarred hearing (.input 9 10 .toActive) ∧
      subjectBarred hearing (.point 2 .normal) ∧ pairNeeded hearing (.input 9 10 .toActive) = some (9, 10) ∧
      pairNeeded hearing (.input 5 10 .toActive) = none ∧ Machine.watched (9, 10) watched.watch ∧
      ¬ Machine.watched (9, 10) (hearing.setWatch (List.replicate 48 ⟨9, 11, 1, .neverHeard⟩)).watch ∧
      viewAtPosting hearing (watched.watch) (.input 9 10 .toActive) = .neverHeard ∧
      viewAtPosting hearing [⟨9, 10, 1, .known .active ⟨5, .ref⟩⟩] (.input 9 10 .toActive) = .known ∧
      viewAtPosting chattering [] (.input 5 3 .toActive) = .chattering ∧
      viewAtPosting hearing [] (.input 5 3 .toActive) = .neverHeard ∧ viewAtPosting hearing [] (.point 2 .normal) = .unknown := by
  simp only [subjectBarred, Machine.watched]; decide +kernel

/-- What a POST CHECK, its last two bytes the repeats and the mark flag, leaves in the entry, in the watch table and in the mark list. -/
def posted (due period repeats mark : Byte) : Option (CheckPhase × Option LineTime × List Nat) :=
  let args := (postArgs 0 9 10 0 due period).take 21 ++ [repeats, mark]
  match exec (.postCheck 1 0 args) hearing with
  | .next t => t.checks[(200 : EntryNo)].map fun c => (c.phase, c.deadline, [c.due, t.watch.length, t.marks.outgoing.length])
  | _ => none

/-- R149: posted when close plus settle is exactly line time, it is decided at once; posted one second later, it is OPEN. -/
theorem test_post_atLineTime :
    posted 7 0 0 1 = some (.done, none, [7000000, 0, 1]) ∧ posted 7 60 1 0 = some (.done, none, [7000000, 0, 0]) ∧
      posted 7 60 0 0 = some (.waiting, some 66000000, [67000000, 1, 0]) ∧
      posted 8 0 0 0 = some (.opened, some 11000000, [8000000, 1, 0]) := by decide +kernel

theorem test_witness_withdraw :
    let s := withEntry openEntry hearing
    takesQuery 1 hearing ∧ takesQuery 1 s ∧ hearing.checks[(200 : EntryNo)] = none ∧
      s.checks[(200 : EntryNo)] = some openEntry ∧ openEntry.subject = .input 9 10 .toActive ∧ openEntry.phase ≠ .done ∧
      (9 : Station) ≠ own s :=
  ⟨test_hearing_takesQuery, ⟨⟨⟨⟨9999000, .agreed⟩, rfl⟩, by decide⟩, by decide⟩, by decide +kernel⟩

/-! ### Marks and holds -/

/-- A receiver with so many holds. -/
def hearingHolds (hs : List Hold) : State := hearing.setMarks { hearing.marks with holds := hs }

theorem test_witness_heardMarks :
    receiving 9 hearing ∧ receiving 9 (hearingHolds [holdIn .closed 0]) ∧
      (holdIn .closed 0).identity = (9, 1) ∧ 4 ≤ (List.replicate 4 (holdIn .closed 0)).length ∧
      storeCount hearing.marks.holds < 1024 ∧ hearing.journal.records.length < 4096 ∧ hearing.marks.holds = [] :=
  ⟨⟨⟨⟨9999000, .agreed⟩, rfl⟩, by decide⟩, ⟨⟨⟨9999000, .agreed⟩, rfl⟩, by decide⟩, by decide +kernel⟩

/-- R166, R172: the store holds 1,024 records; the hold of a mark that it then makes, whose close deadline is to come. -/
theorem test_witness_storeFull :
    let s := hearingHolds [holdIn .closed 1024]
    let m : MarkInfo := ⟨1, 7, 0, 0, 5000000, 10, 10⟩
    receiving 1 s ∧ takesQuery 1 s ∧ 1024 ≤ storeCount s.marks.holds ∧ s.marks.holds.length < 4 ∧
      (∀ h ∈ s.marks.holds, h.identity ≠ (1, 7) ∧ h.identity ≠ (own s, s.marks.own)) ∧
      truncatedAtOnce m s (newHold m s).truncate ∧ (newHold m s).closeDue = false :=
  ⟨⟨⟨⟨9999000, .agreed⟩, rfl⟩, by decide⟩, ⟨⟨⟨⟨9999000, .agreed⟩, rfl⟩, by decide⟩, by decide⟩, by decide +kernel, by decide,
    by decide +kernel, rfl, by decide⟩

/-- A full ring of records dated in the window: MARK HEARD replaces one and HOLD PARTIAL the next, and the walk begins at the oldest left (R166, R169);
with a window that begins later, MARK HEARD alone. -/
theorem test_mark_fullRing :
    let s := hearing.setJournal fullRing.journal
    let made := fun (m : MarkInfo) (h : Hold) (lost : List JournalNo) =>
      answers (.mark 1 7 0 0 (BitVec.ofNat 56 m.time) 10 10) s (fun t =>
        t.marks.holds == [h] && (replacedSince s t).map Record.number == lost) = true
    let m : MarkInfo := ⟨1, 7, 0, 0, 10000000, 10, 10⟩
    made m { newlyMade m s with isPartial := true, walk := some 9 } [7, 8] ∧
      made { m with time := 10000001 } { newlyMade { m with time := 10000001 } s with walk := some 8 } [7] := by
  decide +kernel

theorem test_witness_raise :
    let full := hearing.setMarks { hearing.marks with outgoing := List.replicate 8 ⟨5, 0, 2, 0, 0, 0, 0⟩ }
    takesQuery 1 hearing ∧ takesQuery 1 full ∧ (List.replicate 12 (0 : Byte)).length = 12 ∧
      hearing.config.state ≠ .unconfigured ∧ hearing.marks.holds = [] ∧ hearing.marks.outgoing = [] ∧
      hearing.line.slots[(1 : TelegramClass)] = .vacant ∧ 8 ≤ full.marks.outgoing.length ∧
      ¬ (hearingHolds (List.replicate 4 (holdIn .closed 0))).marks.holds.length < 4 :=
  ⟨test_hearing_takesQuery, ⟨⟨⟨⟨9999000, .agreed⟩, rfl⟩, by decide⟩, by decide⟩, by decide +kernel⟩

/-- A CLOSED hold of a mark of this station. -/
def ownHold (n : Byte) : Hold := { holdIn .closed 0 with mark := ⟨5, n, 2, 0, 10000000, 10, 10⟩ }

/-- R162: the own number passes over the numbers that name holds raised here. -/
theorem test_raise_numbers : nextMarkNumber (hearingHolds (List.map ownHold [1, 3, 2, 4])) 4 1 = 5 ∧
    nextMarkNumber (hearingHolds (List.map ownHold [1, 3])) 4 1 = 2 := by decide

theorem test_witness_raiseFull :
    (hearingHolds (List.map ownHold [1, 3, 2, 4])).marks.holds.length = 4 ∧
      ∀ h ∈ List.map ownHold [1, 3, 2, 4], h.identity ≠ (own hearing, hearing.marks.own) := by decide

theorem test_witness_release :
    let s := hearingHolds [holdIn .closed 0]
    let u := hearingHolds [{ holdIn .closed 0 with inUse := true }]
    takesQuery 1 s ∧ takesQuery 1 u ∧ s.marks.holds = [] ++ holdIn .closed 0 :: [] ∧
      (holdIn .closed 0).mark.originator.val = (9 : Byte).toNat ∧ (holdIn .closed 0).mark.number = 1 ∧
      (holdIn .closed 0).inUse = false ∧
      (∀ h ∈ s.marks.holds, ¬ (h.mark.originator.val = (9 : Byte).toNat ∧ h.mark.number = 2)) :=
  ⟨⟨⟨⟨⟨9999000, .agreed⟩, rfl⟩, by decide⟩, by decide⟩, ⟨⟨⟨⟨9999000, .agreed⟩, rfl⟩, by decide⟩, by decide⟩, by decide +kernel⟩

theorem test_holds_sound (x : HoldState) : (holdIn x 0).sound := by
  cases x <;> (unfold Hold.sound; simp [holdIn])

/-- A walk at its last record but one and at its last, with close due and not, and with the store full; a deadline that has come. -/
theorem test_witness_walk :
    let h := holdIn .copying 3
    let last := { h with walk := some 2, closeDue := true }
    let reached := { holdIn .filling 0 with deadline := some 10000000 }
    (base.setMarks { base.marks with holds := [h] }).marks.holds = [] ++ h :: [] ∧ h.state = .copying ∧ h.walk = some 1 ∧
      (recordAt base.journal 1).isSome = true ∧ (1 : JournalNo) ≠ newestNumber base.journal ∧ last.state = .copying ∧
      (2 : JournalNo) = newestNumber base.journal ∧ (recordAt base.journal 2).isSome = true ∧
      storeCount [h] < 1024 ∧ 1024 ≤ storeCount [h, holdIn .closed 1021] ∧
      reached.deadline = some 10000000 ∧ 10000000 ≤ base.clock.lineTime ∧ (([reached].map Hold.identity).Nodup) ∧
      reached.closeDue = false ∧ h.closeDue = false ∧ h.deadline = some 21000000 := by
  decide +kernel

/-! ### The impulse lines -/

def withLine (d : Dial) (s : State) : State := withDial 1 d s

/-- Impulse line 1 at position 3 with target 4. -/
def lineIn (x : DialState) (wait : Option OscTime) (failed : Nat) (test sensed : Bool) : Dial :=
  { dialAt 3 x with
    target := some 4, deadline := some 10000000, wait := wait, failed := failed, test := test, sensed := sensed
    last := some (99000000, false) }

theorem test_lines_sound : (lineIn .idle none 0 false false).sound ∧ (lineIn .catchingUp (some 100000000) 0 false false).sound ∧
    (lineIn .fault (some 100000000) 3 false false).sound ∧
    (∀ sensed, (lineIn .pulsing none 2 false sensed).sound ∧ (lineIn .pulsing none 1 false sensed).sound ∧
      (lineIn .pulsing none 3 true sensed).sound) := by
  unfold Dial.sound; simp [lineIn, dialAt, Dial.atPowerOn, faceSize]

theorem test_witness_targets :
    let d := lineIn .idle none 0 false false
    (withLine d base).dials[(1 : DialNo)].sound ∧ (withLine d base).dials[(1 : DialNo)].position = some 3 ∧
      d.deadline = some 10000000 ∧ 10000000 ≤ base.clock.lineTime ∧ base.clock.cls ≠ .unset ∧ d.target = some 4 ∧
      (lineIn .catchingUp (some 100000000) 0 false false).wait = some 100000000 ∧ 100000000 ≤ base.clock.osc ∧
      (lineIn .fault (some 100000000) 3 false false).state = .fault :=
  ⟨test_lines_sound.1, by decide⟩

theorem test_witness_pulses (failed : Nat) (test sensed : Bool) :
    let s := withLine (lineIn .pulsing none failed test sensed) base
    pulseRan 1 99000000 s ∧ s.dials[(1 : DialNo)].position = some 3 ∧ s.dials[(1 : DialNo)].target = some 4 ∧
      s.dials[(1 : DialNo)].failed = failed ∧ s.dials[(1 : DialNo)].test = test ∧ s.dials[(1 : DialNo)].sensed = sensed :=
  ⟨⟨rfl, ⟨false, rfl⟩, by show 99000000 + 100 * 10000 ≤ 100000000; decide⟩, rfl, rfl, rfl, rfl, rfl⟩

theorem test_witness_setDial :
    let s := withLine (lineIn .idle none 0 false false) hearing
    let p := withLine (lineIn .pulsing none 0 false false) hearing
    takesQuery 1 s ∧ takesQuery 1 p ∧ s.config.state ≠ .unconfigured ∧ (1 : DialNo).val = (1 : Byte).toNat ∧
      s.dials[(1 : DialNo)].defn.enabled = true ∧ s.dials[(2 : DialNo)].defn.enabled = false ∧
      s.dials[(1 : DialNo)].state ≠ .pulsing ∧ p.dials[(1 : DialNo)].state = .pulsing ∧
      (5 : Byte).toNat * 256 + (159 : Byte).toNat < (faceAndZone s.dials[(1 : DialNo)].defn).1 ∧
      (faceAndZone s.dials[(1 : DialNo)].defn).1 ≤ (5 : Byte).toNat * 256 + (160 : Byte).toNat ∧ (1 : Byte).toNat ≤ 1 ∧
      4 ≤ (4 : Byte).toNat ∧ 0 < s.dials[(1 : DialNo)].defn.step :=
  ⟨⟨⟨⟨⟨9999000, .agreed⟩, rfl⟩, by decide⟩, by decide⟩, ⟨⟨⟨⟨9999000, .agreed⟩, rfl⟩, by decide⟩, by decide⟩, by decide +kernel⟩

theorem test_witness_dialsSound : dialsSound base ∧ quietWhileReading base ∧ ∃ t, step (base.setPending [.lineBusy]) = .next t :=
  ⟨test_base_dialsSound _ rfl, test_base_quiet, _, rfl⟩

/-! ### Queries, starts and the configuration -/

theorem test_witness_queries :
    let full := hearing.setQuery { hearing.query with answers := List.replicate 4 anAnswer }
    let ending := hearing.setQuery { hearing.query with restartPending := true }
    receiving 1 hearing ∧ receiving 1 full ∧ receiving 1 ending ∧
      queryForm (.unknownQuery 1 0 15 []) = some ⟨1, 0, 15, [], none, false⟩ ∧
      queryForm (.raiseMark 1 0 []) = some ⟨1, 0, 6, [], some 12, true⟩ ∧ ending.query.restartPending = true ∧
      full.query.restartPending = false ∧ 4 ≤ full.query.answers.length ∧ hearing.query.answers.length < 4 ∧
      (hearing.setConfig { hearing.config with state := .unconfigured }).config.state = .unconfigured :=
  ⟨test_hearing_receiving, ⟨⟨⟨9999000, .agreed⟩, rfl⟩, by decide⟩, ⟨⟨⟨9999000, .agreed⟩, rfl⟩, by decide⟩, by decide⟩

theorem test_witness_status :
    takesQuery 1 hearing ∧
      ((List.range 6).all fun a => (pageFields a (heardQuery ⟨1, 0, 12, [BitVec.ofNat 8 a], some 1, false⟩ hearing)).any fun b => decide (b.length ≤ 2496)) = true ∧
      6 ≤ (6 : Byte).toNat ∧ (5 : Byte).toNat < 6 := ⟨test_hearing_takesQuery, by decide +kernel⟩

theorem test_witness_latched :
    latchedWhileLive base ∧ (∀ a ∈ base.query.answers, a.forRestart = false) ∧
      (∀ c, (base.setPending [.lineBusy]).pending.head? = some c →
        c ≠ .powerOn ∧ c ≠ .restartPin ∧ ∀ source tag args, c ≠ .clearAlarms source tag args) ∧
      ∃ t, step (base.setPending [.lineBusy]) = .next t := by
  refine ⟨by unfold latchedWhileLive; decide +kernel, by decide, ?_, _, rfl⟩
  intro c h; cases h; exact ⟨by decide, by decide, by simp⟩

theorem test_witness_restart : (edged .holdover).pins.restartEdge = true ∧ holdsFit (edged .holdover) :=
  ⟨rfl, test_base_holdsFit _ rfl⟩

/-- A station whose configuration read stands at a phase. -/
def readingAt (x : ReadPhase) : State := State.reset.setConfig { State.reset.config with phase := x, failures := 2 }

theorem test_quiet_reading (x : ReadPhase) : quietWhileReading (readingAt x) := by
  intro _
  refine ⟨rfl, rfl, ?_, rfl, rfl, rfl, rfl, rfl, rfl, ?_, ?_, ?_, ?_⟩
  · intro k; simp [readingAt, State.reset, State.setConfig, Slot.isSending]
  · intro i; simp [readingAt, State.reset, State.setConfig, Channel.atPowerOn]
  · intro p; simp [readingAt, State.reset, State.setConfig, Point.atPowerOn]
  · intro e; simp [readingAt, State.reset, State.setConfig]
  · intro l; simp [readingAt, State.reset, State.setConfig, Dial.atPowerOn]

/-- While the read is under way: a line with a position and one without. -/
theorem test_witness_lineBegins :
    let s := (readingAt .attempt).setDials (setAt (readingAt .attempt).dials 1 (dialAt 3 .idle))
    s.dials[(1 : DialNo)].position = some 3 ∧ s.dials[(1 : DialNo)].state = .idle ∧ s.dials[(0 : DialNo)].position = none ∧
      quietWhileReading s := by
  refine ⟨rfl, rfl, rfl, fun h => ?_⟩
  obtain ⟨a, b, c, d, e, f, g, i, j, k, l, m, _⟩ := test_quiet_reading .attempt h
  refine ⟨a, b, c, d, e, f, g, i, j, k, l, m, ?_⟩
  decide

/-- A record of 838 bytes: its version, its length, its check field, and zeros. The bytes other than the check sum to the version plus 73. -/
def record (version check : Byte) : List Byte := [version, 3, 70, 0, check] ++ List.replicate 833 0

theorem test_witness_configuration :
    let sampled := State.reset.setPins { State.reset.pins with sampled := true }
    sampled.config.phase = .awaited ∧ sampled.pins.sampled = true ∧ sampled.pins.restart = false ∧ (readingAt .attempt).config.phase = .attempt ∧
      (readingAt (.retryAt 0)).config.phase = .retryAt 0 ∧ 0 ≤ (readingAt (.retryAt 0)).clock.osc ∧
      (readingAt .failed).config.phase = .failed ∧ (record 1 74).length = 838 ∧ 5 ≤ (record 2 74).length ∧
      byteAt (record 2 74) 0 ≠ 1 ∧ (byteAt (record 1 74) 1).toNat * 256 + (byteAt (record 1 74) 2).toNat = 838 ∧
      recordSum (record 1 74) = 74 ∧ (recordCheck (record 1 74)).toNat = 74 ∧ (recordCheck (record 1 75)).toNat = 75 := by
  decide +kernel

/-- The whole read of a right record configures the station; a sum that is off by one leaves it UNCONFIGURED (R200). -/
theorem test_read_right : answers (.configReadEnd (record 1 74)) (readingAt .attempt)
    (fun t => t.config.state == .configured && t.config.reason == .none) = true := by decide +kernel
theorem test_read_wrongCheck : answers (.configReadEnd (record 1 75)) (readingAt .attempt)
    (fun t => t.config.state == .unconfigured && t.config.reason == .check) = true := by decide +kernel

/-- R142: at a read that follows a warm restart a point keeps its outcome, its trend and its counter; at power-on the counter is preloaded. -/
theorem test_read_keepsPoints :
    let x : Point := { Point.atPowerOn with service := 7, serviceDue := true, trendNormal := ⟨some 4000, 4⟩, lastStroke := some 5000 }
    let s := (readingAt .attempt).setPoints (setAt State.reset.points 2 x)
    answers (.configReadEnd (record 1 74)) (s.setQuery { s.query with cause := .pin }) (fun t => t.points[(2 : PointNo)] == x) = true ∧
      answers (.configReadEnd (record 1 74)) s
        (fun t => t.points[(2 : PointNo)] == { x with service := 0, serviceDue := false }) = true := by decide +kernel

theorem test_witness_nothingRuns : quietWhileReading State.reset ∧ ∃ t, step State.reset = .next t := by
  refine ⟨?_, _, rfl⟩
  exact test_quiet_reading .awaited

/-! ### Worked values of the spec -/

/-- R153: a deviation of 47,346,200 µs is 473 tenths. -/
theorem test_tenths : roundHalfAway 47346200 100000 = 473 := by decide

/-- R46: a bit-time is 4, 2 or 1 µs. -/
theorem test_bitRates : [250, 375, 749, 750].map bitRateOf = [250, 500, 500, 1000] := by decide

end Sys2Proof.Tests
end

section
/-! SUPPORT. Line time over oscillator periods (R2, R3): what one period does to the clock unit, what any number of them do, and the statement
about the effective rate. -/

namespace Sys2Proof.Machine

/-! ### One oscillator period -/

theorem readBeacon_clock (s : State) : (readBeacon s).clock = s.clock := by
  unfold readBeacon
  repeat' split
  all_goals rfl

theorem readBeacon_agree (s : State) : (readBeacon s).agree = s.agree := by
  unfold readBeacon
  repeat' split
  all_goals rfl

@[simp] theorem period_clock (s : State) : (period s).clock = s.clock.count := readBeacon_clock _

@[simp] theorem period_agree (s : State) : (period s).agree = s.agree := readBeacon_agree _

/-- The clock unit counts by itself, whatever else the periods do. -/
theorem iterate_period_clock (n : Nat) (s : State) : (period^[n] s).clock = Clock.count^[n] s.clock :=
  Function.Semiconj.iterate_right period_clock n s

/-! ### Counting -/

/-- Line time and its fraction together, in units of 10^-9 µs (R2). -/
def Clock.units (c : Clock) : Nat := c.lineTime * Config.fractionUnits + c.fraction

/-- Line time before the end of the count after a period is what it was, and the whole microseconds of the fraction with the period's units. -/
theorem Clock.lineTime_count {c : Clock} (h : c.count.lineTime < Config.maxLineTime) :
    c.count.lineTime = c.lineTime + (c.fraction + periodUnits c) / Config.fractionUnits :=
  min_eq_right ((min_lt_iff.mp h).resolve_left (lt_irrefl _)).le

/-- Line time does not leave the end of the count (R2). -/
theorem Clock.lineTime_lt_of_count {c : Clock} (h : c.count.lineTime < Config.maxLineTime) : c.lineTime < Config.maxLineTime :=
  (Nat.le_add_right _ _).trans_lt ((min_lt_iff.mp h).resolve_left (lt_irrefl _))

/-- A period adds its units, none lost between line time and the fraction (R3). -/
theorem Clock.units_count {c : Clock} (h : c.count.lineTime < Config.maxLineTime) : c.count.units = c.units + periodUnits c := by
  have hfraction : c.count.fraction = (c.fraction + periodUnits c) % Config.fractionUnits := rfl
  rw [Clock.units, Clock.units, Clock.lineTime_count h, hfraction, Nat.add_mul, Nat.add_assoc, Nat.add_assoc,
    Nat.div_add_mod']

/-- What sets the rate stays, and the fraction stays below a microsecond, as the clock counts (R2, R3). -/
structure Clock.CountedFrom (c d : Clock) : Prop where
  trim : d.trim = c.trim
  slew : d.slew = c.slew
  fastSlewEnd : d.fastSlewEnd = c.fastSlewEnd
  fraction : c.fraction < Config.fractionUnits → d.fraction < Config.fractionUnits

theorem Clock.countedFrom_iterate (n : Nat) (c : Clock) : c.CountedFrom (Clock.count^[n] c) := by
  induction n with
  | zero => exact ⟨rfl, rfl, rfl, id⟩
  | succ n ih =>
    rw [Function.iterate_succ_apply']
    exact ⟨ih.trim, ih.slew, ih.fastSlewEnd, fun _ => Nat.mod_lt _ (by decide)⟩

theorem Clock.CountedFrom.periodUnits_eq {c d : Clock} (h : c.CountedFrom d) : periodUnits d = periodUnits c := by
  simp only [periodUnits, h.trim, h.slew, h.fastSlewEnd]

theorem Clock.osc_iterate (n : Nat) (c : Clock) : (Clock.count^[n] c).osc = c.osc + n := by
  induction n with
  | zero => rfl
  | succ n ih =>
    rw [Function.iterate_succ_apply']
    change (Clock.count^[n] c).osc + 1 = _
    rw [ih, Nat.add_assoc]

/-- `n` periods that do not reach the end of the count add `n` times the units of one. -/
theorem Clock.units_iterate (n : Nat) (c : Clock) (h : (Clock.count^[n] c).lineTime < Config.maxLineTime) :
    (Clock.count^[n] c).units = c.units + n * periodUnits c := by
  induction n with
  | zero => simp
  | succ n ih =>
    rw [Function.iterate_succ_apply'] at h ⊢
    rw [Clock.units_count h, ih (Clock.lineTime_lt_of_count h), (Clock.countedFrom_iterate n c).periodUnits_eq, Nat.succ_mul,
      Nat.add_assoc]

/-! ### The units of a period -/

theorem periodUnits_fastSlew {c : Clock} (h : c.fastSlewEnd ≠ none) : periodUnits c = 50000000 :=
  if_pos (Option.isSome_iff_ne_none.mpr h)

theorem periodUnits_trimmed {s : State} (hs : clockSound s) (h : s.clock.fastSlewEnd = none) :
    (periodUnits s.clock : Int) = 100000000 + s.clock.trim + s.clock.slew := by
  obtain ⟨-, -, htrim, hslew, -⟩ := hs
  simp only [periodUnits, h, Option.isSome_none, Bool.false_eq_true, if_false]
  omega

/-- A period is less than a microsecond of line time, whatever the rate (R3). -/
theorem periodUnits_lt {s : State} (hs : clockSound s) : periodUnits s.clock < Config.fractionUnits := by
  cases h : s.clock.fastSlewEnd with
  | none =>
    have := periodUnits_trimmed hs h
    obtain ⟨-, -, htrim, hslew, -⟩ := hs
    simp only [Config.fractionUnits]
    omega
  | some x =>
    rw [periodUnits_fastSlew (by rw [h]; nofun)]
    decide

/-- The count moves in single microseconds (R2). -/
theorem Clock.count_lineTime_le {c : Clock} (hf : c.fraction < Config.fractionUnits) (hp : periodUnits c < Config.fractionUnits) :
    c.count.lineTime ≤ c.lineTime + 1 :=
  calc c.count.lineTime ≤ c.lineTime + (c.fraction + periodUnits c) / Config.fractionUnits := min_le_right _ _
    _ ≤ c.lineTime + 1 := Nat.add_le_add_left (Nat.le_of_lt_succ (Nat.div_lt_of_lt_mul (by omega))) _

/-- Settles O4: the clock unit counts by itself, each period adds the same units, and no unit is lost. -/
theorem lineTimeCountsAtTheEffectiveRate : Obligations.LineTimeCountsAtTheEffectiveRate := by
  unfold Obligations.LineTimeCountsAtTheEffectiveRate
  intro n s units t hs hend
  have ht : t.clock = Clock.count^[n] s.clock := iterate_period_clock n s
  rw [ht] at hend
  have ⟨_, hfraction, htrim, hslew, _⟩ := hs
  have hunits := Clock.units_iterate n s.clock hend
  have hfrom := Clock.countedFrom_iterate n s.clock
  rw [← ht] at hunits hfrom
  refine ⟨by rw [ht]; exact Clock.osc_iterate n s.clock, fun hnone => ⟨?_, ?_⟩, fun hsome => ?_, ?_⟩
  · have hrate := periodUnits_trimmed hs hnone
    calc ((t.clock.units : Nat) : Int) = ((s.clock.units + n * periodUnits s.clock : Nat) : Int) := by rw [hunits]
      _ = (units : Int) + n * (100000000 + s.clock.trim + s.clock.slew) := by rw [← hrate]; push_cast; rfl
  · have hdrift : (n : Int) * (100000000 + s.clock.trim + s.clock.slew) - n * 100000000 = n * (s.clock.trim + s.clock.slew) := by ring
    rw [hdrift, Int.natAbs_mul, Int.natAbs_natCast]
    exact Nat.mul_le_mul_left n (by omega)
  · rw [periodUnits_fastSlew hsome] at hunits
    exact hunits
  · rw [period_clock]
    refine Clock.count_lineTime_le (hfrom.fraction hfraction) ?_
    rw [hfrom.periodUnits_eq]
    exact periodUnits_lt hs

end Sys2Proof.Machine
end

section
/-! SUPPORT. The class and the agreement state (R9): what a step keeps of `classFollowsState`. Whatever only follows from writes keeps both
(Laws/Consequences.lean); the agreement unit alone enters states, through `enterAgreement`; a restart sets both together. -/

namespace Sys2Proof.Machine

set_option Elab.async false

/-! ### The relation -/

/-- Where the class follows the agreement state in `s`, it does in `t`. -/
structure KeepsClass (s t : State) : Prop where
  follows : classFollowsState s → classFollowsState t

namespace KeepsClass

theorem refl (s : State) : KeepsClass s s := ⟨id⟩

theorem trans {s t u : State} (h : KeepsClass s t) (k : KeepsClass t u) : KeepsClass s u := ⟨k.follows ∘ h.follows⟩

/-- Neither the class nor the agreement state is touched. -/
theorem of_same {s t : State} (cls : t.clock.cls = s.clock.cls := by rfl) (state : t.agree.state = s.agree.state := by rfl) :
    KeepsClass s t := by
  constructor
  unfold classFollowsState
  rw [cls, state]
  exact id

/-- The class follows at the end, whatever it did before. -/
theorem of_classFollows {s t : State} (h : classFollowsState t) : KeepsClass s t := ⟨fun _ => h⟩

theorem fold {α : Type} (f : State → α → State) (h : ∀ s x, KeepsClass s (f s x)) (l : List α) (s : State) :
    KeepsClass s (l.foldl f s) := by
  induction l generalizing s with
  | nil => exact refl s
  | cons x rest ih => exact (h s x).trans (ih (f s x))

/-- A branch that may be taken. -/
theorem optional {s t : State} {c : Prop} [Decidable c] (h : c → KeepsClass s t) : KeepsClass s (if c then t else s) := by
  split
  case isTrue hc => exact h hc
  case isFalse => exact refl s

/-- One of two branches. -/
theorem either {s t u : State} {c : Prop} [Decidable c] (h : KeepsClass s t) (k : KeepsClass s u) :
    KeepsClass s (if c then t else u) := by
  split
  case isTrue => exact h
  case isFalse => exact k

end KeepsClass

/-- All that comes of writes leaves the clock unit and the agreement unit alone. -/
theorem Follows.keepsClass {s t : State} (h : Follows s t) : KeepsClass s t :=
  .of_same (by rw [h.clock]) (by rw [h.agree])

theorem Writes.keepsClass {s t : State} (h : Writes s t) : KeepsClass s t := h.follows.keepsClass

/-- Whatever next state a command answers keeps it. -/
def AnswersInClass (s : State) (o : Host.Outcome State Fault Refusal) : Prop := ∀ t, o = .next t → KeepsClass s t

namespace AnswersInClass

theorem noEvent (s : State) : AnswersInClass s (noEvent s) := by
  rintro t ⟨⟩
  exact .refl s

theorem finish {s u : State} (h : KeepsClass s u) : AnswersInClass s (finish u) := by
  rintro t ⟨⟩
  exact h.trans (writes_relatch u).keepsClass

/-- A command whose event has a condition. -/
theorem guarded {s u : State} {c : Prop} [Decidable c] (h : c → KeepsClass s u) :
    AnswersInClass s (if c then Machine.finish u else Machine.noEvent s) := by
  split
  case isTrue hc => exact finish (h hc)
  case isFalse => exact noEvent s

end AnswersInClass

/-! ### Entering an agreement state (R9, R35) -/

theorem takeClass_same {x : ClockClass} {s : State} (h : s.clock.cls = x) : takeClass x s = s := if_pos h

theorem takeClass_cls (x : ClockClass) (s : State) : (takeClass x s).clock.cls = x := by
  unfold takeClass
  split
  case isTrue h => exact h
  case isFalse => exact congrArg Clock.cls (follows_writeClock 2 x.number (s.setClock { s.clock with cls := x })).clock

theorem takeClass_agree (x : ClockClass) (s : State) : (takeClass x s).agree = s.agree := by
  unfold takeClass
  split
  case isTrue => rfl
  case isFalse => exact (follows_writeClock 2 x.number (s.setClock { s.clock with cls := x })).agree

/-- What `enterAgreement` answers is what `takeClass` does, but for the latch. -/
theorem enterAgreement_writes (x : AgreementState) (s : State) :
    Writes (takeClass (classOf x) (s.setAgree { s.agree with state := x, lockCount := 0, disputeCount := 0, emptyCount := 0 }))
      (enterAgreement x s) := writes_latchIf _ _ _

theorem enterAgreement_state (x : AgreementState) (s : State) : (enterAgreement x s).agree.state = x := by
  rw [(enterAgreement_writes x s).agree, takeClass_agree]
  rfl

theorem enterAgreement_cls (x : AgreementState) (s : State) : (enterAgreement x s).clock.cls = classOf x := by
  rw [(enterAgreement_writes x s).clock, takeClass_cls]

theorem enterAgreement_follows (x : AgreementState) (s : State) : classFollowsState (enterAgreement x s) := by
  unfold classFollowsState
  rw [enterAgreement_cls, enterAgreement_state]

theorem keepsClass_enterAgreement (x : AgreementState) {s t : State} : KeepsClass s (enterAgreement x t) :=
  .of_classFollows (enterAgreement_follows x t)

theorem latchIf_journal (a : AlarmSource) (c : Bool) (s : State) : (latchIf a c s).journal = s.journal := by
  cases c <;> rfl

/-- A state of the class that stands is entered without a class change and without a record (R9). -/
theorem enterAgreement_sameClass {x : AgreementState} {s : State} (h : s.clock.cls = classOf x) :
    (enterAgreement x s).clock = s.clock ∧ (enterAgreement x s).journal = s.journal := by
  have hsame := takeClass_same (s := s.setAgree { s.agree with state := x, lockCount := 0, disputeCount := 0, emptyCount := 0 }) h
  refine ⟨?_, ?_⟩
  · rw [(enterAgreement_writes x s).clock, hsame]
    rfl
  · unfold enterAgreement
    rw [latchIf_journal, hsame]
    rfl

/-! ### The mark unit (chapter 09) -/

theorem keepsClass_setHolds (hs : List Hold) (s : State) : KeepsClass s (setHolds hs s) :=
  .trans .of_same (writes_latchIf .hold _ (s.setMarks { s.marks with holds := hs })).keepsClass

theorem keepsClass_takeInto (i : Nat) (h : Hold) (r : Record) (s : State) : KeepsClass s (takeInto i h r s).1 := by
  unfold takeInto
  split <;> exact keepsClass_setHolds _ s

theorem keepsClass_visitHold (i : Nat) (h : Hold) (n : JournalNo) (r : Record) (s : State) : KeepsClass s (visitHold i h n r s) := by
  have taken : KeepsClass s (if h.inWindow r then takeInto i h r s else (s, [])).1 := by
    split
    · exact keepsClass_takeInto i h r s
    · exact .refl s
  unfold visitHold
  dsimp only
  generalize (if h.inWindow r then takeInto i h r s else (s, [])) = p at taken ⊢
  refine .trans ?_ (.fold _ (fun s c => (follows_writeRecord c s).keepsClass) _ _)
  split
  · exact taken.trans (keepsClass_setHolds _ _)
  · exact taken

theorem execHoldWalkVisit_inClass (o : Station) (n : Byte) (s : State) : AnswersInClass s (execHoldWalkVisit o n s) := by
  unfold execHoldWalkVisit
  repeat' split
  · exact .noEvent s
  · exact .noEvent s
  · exact .finish (keepsClass_visitHold _ _ _ _ s)
  · exact .noEvent s
  · exact .noEvent s

theorem keepsClass_expireHold (o : Station) (n : Byte) (s : State) : KeepsClass s (expireHold o n s) := keepsClass_setHolds _ s

theorem execHoldCloseDeadline_inClass (o : Station) (n : Byte) (s : State) : AnswersInClass s (execHoldCloseDeadline o n s) := by
  unfold execHoldCloseDeadline
  split
  · exact .noEvent s
  · exact .guarded fun _ => keepsClass_expireHold o n s

theorem keepsClass_releaseHold (i : Nat) (h : Hold) (s : State) : KeepsClass s (releaseHold i h s) :=
  (keepsClass_setHolds _ s).trans (follows_writeRecord _ _).keepsClass

/-! ### The check table and the points (chapters 07 and 08) -/

theorem keepsClass_setPoint (p : PointNo) (x : Point) (s : State) : KeepsClass s (setPoint p x s) :=
  .trans .of_same (writes_latchIf .point _ (s.setPoints (setAt s.points p x))).keepsClass

theorem execCheckOpening_inClass (e : EntryNo) (s : State) : AnswersInClass s (execCheckOpening e s) := by
  unfold execCheckOpening
  split
  · exact .noEvent s
  · exact .guarded fun _ => .trans .of_same (follows_settleEntry e _).keepsClass

theorem execCheckDecision_inClass (e : EntryNo) (s : State) : AnswersInClass s (execCheckDecision e s) := by
  unfold execCheckDecision
  split
  · exact .noEvent s
  · rename_i c hc
    refine .guarded fun h => ?_
    have active : c.phase ≠ .done := by
      intro hdone
      simp [CheckEntry.inWindowPhase, hdone] at h
    exact (follows_decideEntry e c s active fun sound => sound e c hc).keepsClass.trans (follows_settleEntry e _).keepsClass

theorem execStartDeadline_inClass (p : PointNo) (s : State) : AnswersInClass s (execStartDeadline p s) := by
  unfold execStartDeadline
  split
  · exact .guarded fun _ => (follows_startExpires ..).keepsClass
  · exact .noEvent s

theorem execStrokeDeadline_inClass (p : PointNo) (s : State) : AnswersInClass s (execStrokeDeadline p s) := by
  unfold execStrokeDeadline
  split
  · exact .guarded fun _ => (follows_strokeExpires ..).keepsClass
  · exact .noEvent s

/-! ### The input unit (chapter 04) -/

theorem keepsClass_setChannel (i : InputNo) (c : Channel) (s : State) : KeepsClass s (setChannel i c s) := .of_same

theorem keepsClass_writeInput (i : InputNo) (r : Record) (s : State) : KeepsClass s (writeInput i r s) :=
  (follows_writeInput i r s).keepsClass

theorem execSample_inClass (contacts : BitVec 64) (reference restart : Bool) (sense : BitVec 4) (s : State) :
    AnswersInClass s (execSample contacts reference restart sense s) := .guarded fun _ => .of_same

theorem keepsClass_acceptNormal (i : InputNo) (c : Channel) (r : Run) (s : State) : KeepsClass s (acceptNormal i c r s) := by
  unfold acceptNormal
  dsimp only
  refine .either (.either .of_same ?_) ?_
  · exact (keepsClass_setChannel i _ s).trans (keepsClass_writeInput i _ _)
  · exact .trans .of_same (keepsClass_writeInput i _ _)

theorem keepsClass_acceptRun (i : InputNo) (r : Run) (s : State) : KeepsClass s (acceptRun i r s) := by
  unfold acceptRun
  dsimp only
  split
  · exact .refl s
  · exact (keepsClass_setChannel i _ s).trans (keepsClass_writeInput i _ _)
  · exact keepsClass_acceptNormal i _ r s
  · exact .of_same

theorem execAcceptance_inClass (i : InputNo) (s : State) : AnswersInClass s (execAcceptance i s) := by
  unfold execAcceptance
  dsimp only
  split
  · exact .noEvent s
  · exact .guarded fun _ => keepsClass_acceptRun i _ s

theorem execStartRunAcceptance_inClass (i : InputNo) (s : State) : AnswersInClass s (execStartRunAcceptance i s) := by
  unfold execStartRunAcceptance
  dsimp only
  split
  · exact .noEvent s
  · exact .guarded fun _ => keepsClass_acceptRun i _ s

theorem keepsClass_endSecond (s : State) (i : InputNo) : KeepsClass s (endSecond s i) := by
  unfold endSecond
  dsimp only
  split
  · exact .of_same
  · refine .either .of_same (.either .of_same ?_)
    split
    · exact .refl s
    · exact (keepsClass_setChannel i _ s).trans (keepsClass_writeInput i _ _)
  · exact .refl s

theorem keepsClass_acceptAwaited (s : State) (i : InputNo) : KeepsClass s (acceptAwaited s i) := by
  unfold acceptAwaited
  dsimp only
  split
  · exact .optional fun _ => keepsClass_acceptRun i _ s
  · exact .refl s

theorem keepsClass_secondTurn (settling : Bool) (s : State) (i : InputNo) : KeepsClass s (secondTurn settling s i) := by
  have spent : KeepsClass s (s.setChoices (s.choices + 1)) := .of_same
  unfold secondTurn
  refine .either (.either ?_ ?_) (keepsClass_endSecond s i)
  · exact spent.trans ((keepsClass_acceptAwaited _ i).trans (keepsClass_endSecond _ i))
  · exact spent.trans ((keepsClass_endSecond _ i).trans (keepsClass_acceptAwaited _ i))

theorem execChatterSecondEnd_inClass (s : State) : AnswersInClass s (execChatterSecondEnd s) :=
  .guarded fun _ => .trans .of_same (.fold _ (keepsClass_secondTurn _) _ _)

/-! ### The dial drivers (chapter 10) -/

theorem keepsClass_setDialState (l : DialNo) (d : Dial) (s : State) : KeepsClass s (setDialState l d s) :=
  .trans .of_same (writes_latchIf .dial _ (s.setDials (setAt s.dials l d))).keepsClass

theorem keepsClass_expireDial (l : DialNo) (s : State) : KeepsClass s (expireDial l s) :=
  .optional fun _ => keepsClass_setDialState l _ s

theorem execTargetChange_inClass (l : DialNo) (s : State) : AnswersInClass s (execTargetChange l s) :=
  .guarded fun _ => keepsClass_expireDial l s

theorem keepsClass_enterFault (l : DialNo) (d : Dial) (s : State) : KeepsClass s (enterFault l d s) :=
  (keepsClass_setDialState l _ s).trans ((follows_latch .dial _).trans (follows_writeRecord _ _)).keepsClass

theorem keepsClass_endPulse (l : DialNo) (s : State) : KeepsClass s (endPulse l s) :=
  .either (keepsClass_setDialState l _ s) (.either (keepsClass_enterFault l _ s) (keepsClass_setDialState l _ s))

theorem execPulseEnd_inClass (l : DialNo) (s : State) : AnswersInClass s (execPulseEnd l s) :=
  .guarded fun _ => keepsClass_endPulse l s

theorem keepsClass_endTestPulse (l : DialNo) (s : State) : KeepsClass s (endTestPulse l s) :=
  .either ((keepsClass_setDialState l _ s).trans ((follows_writeRecord _ _).keepsClass.trans (keepsClass_setDialState l _ _)))
    (keepsClass_setDialState l _ s)

theorem execTestPulseEnd_inClass (l : DialNo) (s : State) : AnswersInClass s (execTestPulseEnd l s) :=
  .guarded fun _ => keepsClass_endTestPulse l s

theorem execSpacingWaitEnd_inClass (l : DialNo) (s : State) : AnswersInClass s (execSpacingWaitEnd l s) :=
  .guarded fun _ => keepsClass_setDialState l _ s

theorem execTestWaitEnd_inClass (l : DialNo) (s : State) : AnswersInClass s (execTestWaitEnd l s) :=
  .guarded fun _ => keepsClass_setDialState l _ s

/-! ### The clock unit (chapter 01) -/

theorem keepsClass_phaseFallsDue (s : State) : KeepsClass s (phaseFallsDue s) := by
  unfold phaseFallsDue
  dsimp only
  split <;> exact .of_same

theorem keepsClass_setPhase (s : State) : KeepsClass s (setPhase s) :=
  .trans .of_same (.optional fun _ => keepsClass_phaseFallsDue (s.setAgree { s.agree with phase := some (firstPhase (own s) s.clock.lineTime) }))

theorem execBeaconPhase_inClass (s : State) : AnswersInClass s (execBeaconPhase s) := by
  unfold execBeaconPhase
  split
  · exact .guarded fun _ => keepsClass_phaseFallsDue s
  · exact .noEvent s

theorem keepsClass_expireOwner (s : State) (x : DeadlineOwner) : KeepsClass s (expireOwner s x) := by
  cases x with
  | point p => exact (follows_expirePoint p s).keepsClass
  | entry e => exact (follows_settleEntry e s).keepsClass
  | hold o n => exact keepsClass_expireHold o n s
  | dial l => exact keepsClass_expireDial l s

theorem keepsClass_expireReached (s : State) : KeepsClass s (expireReached s) :=
  (writes_inAnyOrder _ s).keepsClass.trans (.fold _ keepsClass_expireOwner _ _)

theorem keepsClass_passPhase (s : State) : KeepsClass s (passPhase s) := by
  unfold passPhase
  split
  · exact .optional fun _ => keepsClass_setPhase s
  · exact .refl s

theorem keepsClass_afterJump (s : State) : KeepsClass s (afterJump s) :=
  (keepsClass_expireReached s).trans (keepsClass_passPhase _)

theorem keepsClass_stepForward (c : Int) (s : State) : KeepsClass s (stepForward c s) :=
  .trans .of_same ((follows_writeClock 0 _ _).trans (follows_latch .clock _)).keepsClass

theorem keepsClass_startFastSlew (c : Int) (s : State) : KeepsClass s (startFastSlew c s) :=
  .trans .of_same ((follows_writeClock 1 _ _).trans (follows_latch .clock _)).keepsClass

theorem keepsClass_startDial (s : State) (l : DialNo) : KeepsClass s (startDial s l) := keepsClass_setDialState l _ s

/-- A first setting enters its state, and what comes after keeps its class (R8). -/
theorem keepsClass_firstSetting (c : Int) (x : AgreementState) {s t : State} : KeepsClass s (firstSetting c x t) := by
  unfold firstSetting
  dsimp only
  refine .trans ?_ (.fold startDial keepsClass_startDial _ _)
  refine .trans ?_ (.optional fun _ => keepsClass_setPhase _)
  exact (keepsClass_enterAgreement x).trans (keepsClass_expireReached _)

theorem execFastSlewEnd_inClass (s : State) : AnswersInClass s (execFastSlewEnd s) := by
  unfold execFastSlewEnd
  split
  · exact .guarded fun _ => .of_same
  · exact .noEvent s

theorem keepsClass_setPortUnit (x : RefPort) (s : State) : KeepsClass s (setPortUnit x s) :=
  .trans .of_same (writes_latchIf .reference _ (s.setPort x)).keepsClass

theorem execReferenceCharacter_inClass (c : Byte) (e : Bool) (s : State) : AnswersInClass s (execReferenceCharacter c e s) := by
  unfold execReferenceCharacter
  split
  · exact .noEvent s
  · exact .finish .of_same

theorem execReferenceMessage_inClass (day second : Nat) (s : State) : AnswersInClass s (execReferenceMessage day second s) := by
  unfold execReferenceMessage
  split
  · exact .noEvent s
  · exact .finish .of_same

theorem keepsClass_loseReference (p : RefPort) (s : State) : KeepsClass s (loseReference p s) :=
  (keepsClass_setPortUnit { p with state := .searching } s).trans (.optional fun _ => keepsClass_enterAgreement .holdover)

theorem keepsClass_reachValid (p : RefPort) (offset : Int) (s : State) : KeepsClass s (reachValid p offset s) :=
  .either (keepsClass_firstSetting offset .reference) (keepsClass_enterAgreement .reference)

theorem keepsClass_labelledPulse (l : Label) (p : RefPort) (s : State) : KeepsClass s (labelledPulse l p s) := by
  unfold labelledPulse
  exact .either (.either .of_same (.either (keepsClass_reachValid _ _ s) .of_same)) (.either (keepsClass_loseReference _ s) .of_same)

theorem keepsClass_takePulse (s : State) : KeepsClass s (takePulse s) := by
  unfold takePulse
  dsimp only
  split
  · exact keepsClass_labelledPulse ..
  · exact keepsClass_loseReference ..

theorem execReferencePulse_inClass (s : State) : AnswersInClass s (execReferencePulse s) := .guarded fun _ => keepsClass_takePulse s

theorem execReferenceLossTimeout_inClass (s : State) : AnswersInClass s (execReferenceLossTimeout s) :=
  .guarded fun _ => keepsClass_loseReference _ s

/-! ### What the station hears (chapters 02, 03, 06 and 09) -/

/-- A telegram received ends the reception, and then its block takes it. -/
theorem receive_inClass (x : Telegram) (src : Station) {hand : Date → State → State} (h : ∀ d s, KeepsClass s (hand d s)) (s : State) :
    AnswersInClass s (receive x src hand s) := by
  unfold receive
  split
  · dsimp only
    split
    · exact .finish .of_same
    · exact .finish (.trans .of_same (h _ (reportHeard src (afterReception x s))))
  · exact .noEvent s

theorem execTelegramDropped_inClass (seen : List BitTime) (s : State) : AnswersInClass s (execTelegramDropped seen s) :=
  .guarded fun _ => .of_same

theorem execDuplicateStationTelegram_inClass (x : Telegram) (s : State) : AnswersInClass s (execDuplicateStationTelegram x s) := by
  unfold execDuplicateStationTelegram
  split
  · exact .guarded fun _ => .of_same
  · exact .noEvent s

theorem execTelegramIgnored_inClass (x : Telegram) (s : State) : AnswersInClass s (execTelegramIgnored x s) := by
  unfold execTelegramIgnored
  split
  · exact receive_inClass _ _ (fun _ s => .refl s) s
  · exact .noEvent s

theorem keepsClass_takeBeacon (src : Station) (cls : ClockClass) (transmit : BitVec 56) (d : Date) (s : State) :
    KeepsClass s (takeBeacon src cls transmit d s) := .either .of_same (.optional fun _ => .of_same)

theorem execBeacon_inClass (src : Station) (cls : ClockClass) (code : BitVec 3) (alarm : Bool) (transmit : BitVec 56) (s : State) :
    AnswersInClass s (execBeacon src cls code alarm transmit s) := receive_inClass _ _ (keepsClass_takeBeacon src cls transmit) s

theorem execMark_inClass (src : Station) (number reason subject : Byte) (time : BitVec 56) (pre post : BitVec 16) (s : State) :
    AnswersInClass s (execMark src number reason subject time pre post s) :=
  receive_inClass _ _ (fun _ s => (follows_applyHeard _ s).keepsClass) s

theorem keepsClass_makeUncertain (stations : Station → Bool) (s : State) : KeepsClass s (makeUncertain stations s) :=
  (follows_makeUncertain stations s).keepsClass

theorem keepsClass_countSilence (s : State) : KeepsClass s (countSilence s) := .trans .of_same (keepsClass_makeUncertain _ _)

theorem keepsClass_hearNews (src : Station) (sequence : BitVec 16) (gap : Byte) (records : List Record) (s : State) :
    KeepsClass s (hearNews src sequence gap records s) := by
  have gapTaken : KeepsClass s (hearGap src s) := .trans .of_same (keepsClass_makeUncertain _ _)
  unfold hearNews
  dsimp only
  refine .trans ?_ (.fold _ (fun s r => (follows_hearRecord src s r).keepsClass) _ _)
  exact .trans (.either (.refl s) gapTaken) .of_same

theorem execNews_inClass (src : Station) (sequence : BitVec 16) (gap : Byte) (records : List Record) (s : State) :
    AnswersInClass s (execNews src sequence gap records s) :=
  receive_inClass _ _ (fun _ s => keepsClass_hearNews src sequence gap records s) s

/-! ### The agreement unit (chapter 02) -/

theorem keepsClass_setCounts (lock dispute empty : Nat) (s : State) : KeepsClass s (setCounts lock dispute empty s) := .of_same

theorem keepsClass_correct (c : Int) (s : State) : KeepsClass s (correct c s) := .of_same

theorem keepsClass_stepOrSlew (c : Int) (s : State) : KeepsClass s (stepOrSlew c s) :=
  .either (keepsClass_stepForward c s) (keepsClass_startFastSlew c s)

theorem keepsClass_afterStep (c : Int) (s : State) : KeepsClass s (afterStep c s) := .optional fun _ => keepsClass_afterJump s

theorem keepsClass_applyLarge (c : Int) (s : State) : KeepsClass s (applyLarge c s) :=
  (keepsClass_stepOrSlew c s).trans (keepsClass_afterStep c _)

theorem keepsClass_acquire (c : Int) (s : State) : KeepsClass s (acquire c s) :=
  .either (.either (.either (keepsClass_enterAgreement .locked) .of_same) .of_same) (.trans .of_same (keepsClass_applyLarge c _))

theorem keepsClass_stayLocked (c : Int) (s : State) : KeepsClass s (stayLocked c s) :=
  .either .of_same (.either ((keepsClass_enterAgreement .acquiring).trans (keepsClass_afterStep c _)) .of_same)

theorem keepsClass_lockedEmpty (s : State) : KeepsClass s (lockedEmpty s) :=
  .either (keepsClass_enterAgreement .holdover) .of_same

theorem keepsClass_holdOver (c : Int) (s : State) : KeepsClass s (holdOver c s) :=
  .either (keepsClass_enterAgreement .locked) ((keepsClass_enterAgreement .acquiring).trans (keepsClass_afterStep c _))

theorem keepsClass_followReference (c : Int) (s : State) : KeepsClass s (followReference c s) :=
  .either .of_same (keepsClass_applyLarge c s)

theorem keepsClass_takeMidpoint (ms : List Member) (s : State) : KeepsClass s (takeMidpoint ms s) := by
  unfold takeMidpoint
  dsimp only
  refine .trans (t := s.setAgree
    { s.agree with lastMidpoint := some (midpoint ms), peers := updateStreaks (own s) ms s.agree.peers }) .of_same ?_
  split
  · exact keepsClass_firstSetting _ .acquiring
  · exact keepsClass_acquire ..
  · exact keepsClass_stayLocked ..
  · exact keepsClass_holdOver ..
  · exact .refl _

theorem keepsClass_workOut (s : State) : KeepsClass s (workOut s) := by
  unfold workOut
  dsimp only
  split
  · split
    · exact keepsClass_followReference _ s
    · exact .refl s
  · have counted : ∀ x, KeepsClass s (s.setAgree { s.agree with lastSet := x }) := fun _ => .of_same
    split
    · exact (counted _).trans (.optional fun _ => keepsClass_lockedEmpty _)
    · exact (counted _).trans (keepsClass_takeMidpoint _ _)

theorem keepsClass_endInterval (s : State) : KeepsClass s (endInterval s) := by
  unfold endInterval
  extract_lets clock slewEnded worked
  have hslew : KeepsClass s slewEnded := .of_same
  have hworked : KeepsClass slewEnded worked := .either (.refl _) (keepsClass_workOut _)
  have hclosed : KeepsClass worked (closeInterval worked) := .of_same
  exact hslew.trans <| hworked.trans <| hclosed.trans (keepsClass_countSilence _)

theorem execIntervalEnd_inClass (s : State) : AnswersInClass s (execIntervalEnd s) := .guarded fun _ => keepsClass_endInterval s

/-! ### The history reader (chapter 05) -/

theorem keepsClass_collectLook (s : State) : KeepsClass s (collectLook s) := (writes_collectLook s).keepsClass

theorem keepsClass_markUse (x : ReadSource) (used : Bool) (s : State) : KeepsClass s (markUse x used s) := by
  cases x with
  | journal => exact .refl s
  | hold o n => exact keepsClass_setHolds _ s

theorem keepsClass_endRead (rd : Read) (s : State) : KeepsClass s (endRead rd s) := .trans .of_same (keepsClass_markUse _ _ _)

theorem keepsClass_requestFlush (x : Option JournalNo) (s : State) : KeepsClass s (requestFlush x s) := by
  cases x with
  | none => exact .refl s
  | some x => exact .trans .of_same (follows_newsLook _).keepsClass

theorem keepsClass_acceptRead (requester : Station) (tag : Byte) (x : ReadSource) (fromDate toDate : LineTime) (mask : BitVec 16)
    (s : State) : KeepsClass s (acceptRead requester tag x fromDate toDate mask s) :=
  .trans .of_same ((keepsClass_markUse x true _).trans (keepsClass_requestFlush _ _))

theorem keepsClass_readerLook (s : State) : KeepsClass s (readerLook s) := by
  unfold readerLook
  split
  · exact .optional fun _ => .trans .of_same (keepsClass_collectLook _)
  · exact .refl s

theorem keepsClass_targetFinished (x : JournalNo) (s : State) : KeepsClass s (targetFinished x s) := by
  unfold targetFinished
  split
  · exact .optional fun _ => .trans .of_same (keepsClass_readerLook _)
  · exact .refl s

theorem keepsClass_acceptedFinished (s : State) : KeepsClass s (acceptedFinished s) := by
  unfold acceptedFinished
  split
  · exact .trans .of_same (keepsClass_readerLook _)
  · exact .refl s

theorem keepsClass_historyFinished (s : State) : KeepsClass s (historyFinished s) := by
  unfold historyFinished
  split
  · exact .refl s
  · split
    · exact .either (keepsClass_endRead _ s) (.trans .of_same (keepsClass_collectLook _))
    · exact .of_same
    · exact .refl s

theorem execHistoryVisit_inClass (s : State) : AnswersInClass s (execHistoryVisit s) := by
  unfold execHistoryVisit
  repeat' split
  · exact .finish (.trans .of_same (keepsClass_collectLook _))
  · exact .noEvent s
  · exact .noEvent s
  · exact .noEvent s

/-! ### Starts and restarts (chapter 11) -/

theorem follows_writeDialLost (l : DialNo) (position : Nat) (s : State) : Follows s (writeDialLost l position s) :=
  (follows_writeRecord _ s).trans (follows_latch .dial _)

/-- A warm restart sets the blocks, and all that it does after is writing records (R204). -/
theorem follows_warmRestart (cause : RestartCause) (s : State) : Follows (restartBlocks cause s) (warmRestart cause s) := by
  unfold warmRestart
  dsimp only
  have started := (follows_relatch (restartBlocks cause s)).trans
    (follows_writeRecord (restartDraft cause (now s) (relatch (restartBlocks cause s))) _)
  generalize writeRecord (restartDraft cause (now s) (relatch (restartBlocks cause s))) (relatch (restartBlocks cause s)) = u at started ⊢
  have changed : Follows u (if u.clock.cls = s.clock.cls then u else writeClock 2 u.clock.cls.number u) := by
    split
    · exact .refl u
    · exact follows_writeClock ..
  refine started.trans (changed.trans (.trans (follows_fold _ (fun v h => follows_writeRecord (holdDraft 0 h v) v) _ _)
    (follows_fold _ (fun v l => ?_) _ _)))
  split
  · exact follows_writeDialLost ..
  · exact .refl v

/-- A warm restart takes the demoted state and its class at one moment (R20, R45). -/
theorem warmRestart_follows (cause : RestartCause) (s : State) : classFollowsState (warmRestart cause s) := by
  unfold classFollowsState
  rw [(follows_warmRestart cause s).clock, (follows_warmRestart cause s).agree]
  rfl

theorem warmRestart_cls (cause : RestartCause) (s : State) :
    (warmRestart cause s).clock.cls = if s.agree.state = .unset then .unset else .drifting := by
  rw [(follows_warmRestart cause s).clock]
  change classOf (demoted s.agree.state) = _
  cases s.agree.state <;> rfl

theorem execRestartPin_inClass (s : State) : AnswersInClass s (execRestartPin s) :=
  .guarded fun _ => .of_classFollows (warmRestart_follows .pin _)

/-- POWER_ON sets every block to its power-on value, and then writes (R202). -/
theorem execPowerOn_next {s t : State} (h : exec .powerOn s = .next t) :
    t.clock = State.reset.clock ∧ t.agree = State.reset.agree := by
  obtain rfl := Host.Outcome.next.inj h
  have written := fun r (u : State) => (writes_relatch u).follows.trans ((follows_writeRecord r _).trans (follows_relatch _))
  exact ⟨(written _ _).clock, (written _ _).agree⟩

theorem execPowerOn_inClass (s : State) : AnswersInClass s (execPowerOn s) := by
  intro t h
  obtain ⟨hclock, hagree⟩ := execPowerOn_next h
  refine .of_classFollows ?_
  unfold classFollowsState
  rw [hclock, hagree]
  rfl

theorem execConfigReadBegin_inClass (straps : BitVec 5) (s : State) : AnswersInClass s (execConfigReadBegin straps s) :=
  .guarded fun _ => .of_same

theorem execByteNotAcknowledged_inClass (s : State) : AnswersInClass s (execByteNotAcknowledged s) := .guarded fun _ => .of_same

theorem execConfigAttemptRetry_inClass (s : State) : AnswersInClass s (execConfigAttemptRetry s) := by
  unfold execConfigAttemptRetry
  split
  · exact .guarded fun _ => .of_same
  · exact .noEvent s

theorem keepsClass_definePoint (defs : Vector (Option PointDef) 32) (s : State) (p : PointNo) :
    KeepsClass s (definePoint defs s p) := by
  unfold definePoint
  dsimp only
  repeat' split
  all_goals exact .of_same

theorem keepsClass_startLine (defs : Vector DialDef 4) (s : State) (l : DialNo) : KeepsClass s (startLine defs s l) := by
  unfold startLine
  dsimp only
  split
  · exact keepsClass_setDialState l _ s
  · exact .either (keepsClass_setDialState l _ s) ((keepsClass_setDialState l _ s).trans (follows_writeDialLost ..).keepsClass)

/-- The end of the read, block by block. -/
theorem keepsClass_configure (rec : ConfigRecord) (config : ConfigUnit) (s : State) : KeepsClass s (configure rec config s) := by
  unfold configure
  extract_lets settled clock trimmed query enabled channels defined preloaded line running fitted agree phased looked
  have hsettled : KeepsClass s settled := .of_same
  have htrimmed : KeepsClass settled trimmed := .optional fun _ => .of_same
  have hchannels : KeepsClass trimmed channels := .of_same
  have hdefined : KeepsClass channels defined := .trans .of_same (.fold _ (keepsClass_definePoint rec.points) _ _)
  have hpreloaded : KeepsClass defined preloaded := .optional fun _ => .of_same
  have hrunning : KeepsClass preloaded running := .of_same
  have hfitted : KeepsClass running fitted := keepsClass_setPortUnit _ _
  have hphased : KeepsClass fitted phased := .trans .of_same (keepsClass_setPhase _)
  have hlooked : KeepsClass phased looked := (follows_newsLook _).keepsClass
  have hlines : KeepsClass looked ((List.finRange 4).foldl (startLine rec.dials) looked) := .fold _ (keepsClass_startLine rec.dials) _ _
  exact hsettled.trans <| htrimmed.trans <| hchannels.trans <| hdefined.trans <| hpreloaded.trans <| hrunning.trans <|
    hfitted.trans <| hphased.trans <| hlooked.trans hlines

theorem execConfigReadEnd_inClass (bytes : List Byte) (s : State) : AnswersInClass s (execConfigReadEnd bytes s) := by
  unfold execConfigReadEnd
  split
  · exact .finish (keepsClass_configure ..)
  · split
    · exact .noEvent s
    · exact .finish (keepsClass_configure ..)
    · exact .finish (keepsClass_configure ..)
  · exact .noEvent s

/-! ### The line controller and what finishes on it (chapter 03) -/

theorem execLineFree_inClass (s : State) : AnswersInClass s (execLineFree s) := .guarded fun _ => .of_same

theorem execLineBusy_inClass (s : State) : AnswersInClass s (execLineBusy s) := by
  unfold execLineBusy
  split
  · exact .finish .of_same
  · exact .guarded fun _ => .of_same
  · exact .noEvent s

theorem execStartSequenceHeard_inClass (s : State) : AnswersInClass s (execStartSequenceHeard s) := .guarded fun _ => .of_same

theorem keepsClass_startSending (k : TelegramClass) (s : State) : KeepsClass s (startSending k s) := by
  unfold startSending
  split
  · exact .of_same
  · exact .refl s

theorem execContentionSlot_inClass (p : TelegramClass) (s : State) : AnswersInClass s (execContentionSlot p s) := by
  unfold execContentionSlot
  split
  · split
    · exact .finish (keepsClass_startSending _ s)
    · exact .noEvent s
  · exact .noEvent s

theorem execFairnessRoundEnd_inClass (s : State) : AnswersInClass s (execFairnessRoundEnd s) := .guarded fun _ => .of_same

theorem keepsClass_markFinished (sent : Bool) (s : State) : KeepsClass s (markFinished sent s) :=
  .trans .of_same (follows_placeMark _).keepsClass

theorem keepsClass_newsFinished (x : NewsTelegram) (sent : Bool) (s : State) : KeepsClass s (newsFinished x sent s) := by
  unfold newsFinished
  dsimp only
  refine .trans ?_ ((follows_newsLook _).trans (follows_arbitrate _)).keepsClass
  split
  · exact .trans .of_same (keepsClass_targetFinished _ _)
  · exact .of_same

/-- The answer of a RESTART takes the restart into effect, and any other leaves the class alone (R203). -/
theorem keepsClass_answerFinished (s : State) : KeepsClass s (answerFinished s) := by
  unfold answerFinished
  split
  · exact (follows_arbitrate s).keepsClass
  · refine .either (.trans .of_same (follows_arbitrate _).keepsClass) (.either (.of_classFollows (warmRestart_follows ..)) ?_)
    exact .trans (.trans .of_same (.either (keepsClass_acceptedFinished _) (.refl _))) (follows_arbitrate _).keepsClass

theorem keepsClass_reportFinished (x : OutTelegram) (sent : Bool) (s : State) : KeepsClass s (reportFinished x sent s) := by
  unfold reportFinished
  split
  · exact .refl s
  · exact keepsClass_markFinished sent s
  · exact keepsClass_newsFinished _ sent s
  · exact keepsClass_answerFinished s
  · exact keepsClass_historyFinished s

theorem keepsClass_telegramSent (k : TelegramClass) (x : OutTelegram) (since : OscTime) (s : State) :
    KeepsClass s (telegramSent k x since s) := by
  unfold telegramSent
  dsimp only
  exact .trans (.either .of_same .of_same) (keepsClass_reportFinished x true _)

theorem execTelegramSent_inClass (s : State) : AnswersInClass s (execTelegramSent s) := by
  unfold execTelegramSent
  split
  · exact .guarded fun _ => keepsClass_telegramSent _ _ _ s
  · exact .noEvent s

theorem keepsClass_telegramStopped (k : TelegramClass) (x : OutTelegram) (attempts : Nat) (since : OscTime) (s : State) :
    KeepsClass s (telegramStopped k x attempts since s) := by
  unfold telegramStopped
  dsimp only
  exact .either (.trans .of_same (keepsClass_reportFinished x false _)) .of_same

theorem execMismatch_inClass (s : State) : AnswersInClass s (execMismatch s) := by
  unfold execMismatch
  split
  · exact .guarded fun _ => keepsClass_telegramStopped _ _ _ _ s
  · exact .noEvent s

theorem execNewsBatchWaitEnd_inClass (s : State) : AnswersInClass s (execNewsBatchWaitEnd s) :=
  .guarded fun _ => (follows_newsLook s).keepsClass

/-! ### Queries (chapter 11) -/

theorem keepsClass_answerQuery (source : Station) (tag kind : Byte) {owner : State → State × Reply}
    (h : ∀ s, KeepsClass s (owner s).1) (s : State) : KeepsClass s (answerQuery source tag kind owner s) := by
  unfold answerQuery
  split
  · exact .refl s
  · refine .either .of_same (.trans (h s) ?_)
    exact .trans .of_same (follows_arbitrate _).keepsClass

/-- A query does what its owner does (R192). -/
theorem query_inClass (code length : Nat) (needsRecord : Bool) (source : Station) (tag : Byte) (args : List Byte)
    {owner : State → State × Reply} (h : ∀ s, KeepsClass s (owner s).1) (s : State) :
    AnswersInClass s (query code length needsRecord source tag args owner s) := by
  refine receive_inClass _ _ (fun _ => keepsClass_answerQuery _ _ _ fun u => ?_) s
  unfold apply
  repeat' split
  · exact .refl u
  · exact .refl u
  · exact h u

theorem execUnknownQuery_inClass (source : Station) (tag kind : Byte) (args : List Byte) (s : State) :
    AnswersInClass s (execUnknownQuery source tag kind args s) :=
  receive_inClass _ _ (fun _ => keepsClass_answerQuery _ _ _ fun u => .refl u) s

theorem keepsClass_post (p : Posting) (x : Subject) (s : State) : KeepsClass s (post p x s).1 := by
  unfold post
  dsimp only
  split <;> exact .trans .of_same (follows_settleEntry ..).keepsClass

theorem keepsClass_postCases (p : Posting) (s : State) : KeepsClass s (postCases p s).1 := by
  unfold postCases
  repeat' split
  · exact .refl s
  · exact .refl s
  · exact .refl s
  · exact .refl s
  · exact .refl s
  · exact keepsClass_post p _ s
  · exact .refl s
  · exact keepsClass_post p _ s

theorem keepsClass_withdraw (e : EntryNo) (s : State) : KeepsClass s (withdraw e s).1 := by
  unfold withdraw
  split
  · exact .refl s
  · exact .trans (.optional fun _ => (follows_giveBack _ s).keepsClass) .of_same

theorem keepsClass_readEntry (e : EntryNo) (s : State) : KeepsClass s (readEntry e s).1 := by
  unfold readEntry
  split <;> exact .of_same

theorem keepsClass_historyCases (source : Station) (tag : Byte) (args : List Byte) (s : State) :
    KeepsClass s (historyCases source tag args s).1 := by
  unfold historyCases
  dsimp only
  repeat' split
  · exact .refl s
  · exact .refl s
  · exact .refl s
  · exact .refl s
  · exact keepsClass_acceptRead ..
  · exact .refl s

theorem keepsClass_cancelCases (source : Station) (s : State) : KeepsClass s (cancelCases source s).1 := by
  unfold cancelCases
  repeat' split
  · exact .refl s
  · exact .trans (keepsClass_endRead _ s) .of_same
  · exact .refl s

theorem keepsClass_raiseCases (args : List Byte) (s : State) : KeepsClass s (raiseCases args s).1 := (follows_raiseMark ..).keepsClass

theorem keepsClass_releaseCases (args : List Byte) (s : State) : KeepsClass s (releaseCases args s).1 := by
  unfold releaseCases
  repeat' split
  · exact .refl s
  · exact .refl s
  · exact .refl s
  · exact keepsClass_releaseHold ..

theorem keepsClass_putDial (l : DialNo) (position : Nat) (negative : Bool) (s : State) :
    KeepsClass s (putDial l position negative s) :=
  (keepsClass_setDialState l _ s).trans ((follows_writeRecord ..).keepsClass.trans (keepsClass_setDialState l _ _))

theorem keepsClass_setDialCases (args : List Byte) (s : State) : KeepsClass s (setDialCases args s).1 := by
  unfold setDialCases
  dsimp only
  repeat' split
  · exact .refl s
  · exact .refl s
  · exact .refl s
  · exact .refl s
  · exact keepsClass_putDial ..

theorem keepsClass_readDialCases (args : List Byte) (s : State) : KeepsClass s (readDialCases args s).1 := by
  unfold readDialCases
  split <;> exact .refl s

theorem keepsClass_resetCases (args : List Byte) (s : State) : KeepsClass s (resetCases args s).1 := by
  unfold resetCases
  repeat' split
  · exact .refl s
  · exact .refl s
  · exact keepsClass_setPoint ..

theorem keepsClass_readPointCases (args : List Byte) (s : State) : KeepsClass s (readPointCases args s).1 := by
  unfold readPointCases
  repeat' split
  all_goals exact .of_same

theorem keepsClass_statusCases (args : List Byte) (s : State) : KeepsClass s (statusCases args s).1 := by
  unfold statusCases
  split <;> exact .refl s

theorem keepsClass_clearCases (args : List Byte) (s : State) : KeepsClass s (clearCases args s).1 := .of_same

theorem keepsClass_restartCases (s : State) : KeepsClass s (restartCases s).1 := .of_same

/-! ### Every step -/

theorem exec_inClass (c : Instr) (s : State) : AnswersInClass s (exec c s) := by
  cases c with
  | powerOn => exact execPowerOn_inClass s
  | restartPin => exact execRestartPin_inClass s
  | configReadBegin straps => exact execConfigReadBegin_inClass straps s
  | configAttemptRetry => exact execConfigAttemptRetry_inClass s
  | configReadEnd bytes => exact execConfigReadEnd_inClass bytes s
  | sample contacts reference restart sense => exact execSample_inClass contacts reference restart sense s
  | acceptance i => exact execAcceptance_inClass i s
  | startRunAcceptance i => exact execStartRunAcceptance_inClass i s
  | chatterSecondEnd => exact execChatterSecondEnd_inClass s
  | referenceMessage day second => exact execReferenceMessage_inClass day second s
  | referencePulse => exact execReferencePulse_inClass s
  | referenceLossTimeout => exact execReferenceLossTimeout_inClass s
  | intervalEnd => exact execIntervalEnd_inClass s
  | fastSlewEnd => exact execFastSlewEnd_inClass s
  | beaconPhase => exact execBeaconPhase_inClass s
  | lineFree => exact execLineFree_inClass s
  | contentionSlot p => exact execContentionSlot_inClass p s
  | fairnessRoundEnd => exact execFairnessRoundEnd_inClass s
  | startSequenceHeard => exact execStartSequenceHeard_inClass s
  | mismatch => exact execMismatch_inClass s
  | telegramSent => exact execTelegramSent_inClass s
  | telegramDropped seen => exact execTelegramDropped_inClass seen s
  | duplicateStationTelegram x => exact execDuplicateStationTelegram_inClass x s
  | telegramIgnored x => exact execTelegramIgnored_inClass x s
  | beacon src cls code alarm transmit => exact execBeacon_inClass src cls code alarm transmit s
  | mark src number reason subject time pre post => exact execMark_inClass src number reason subject time pre post s
  | news src sequence gap records => exact execNews_inClass src sequence gap records s
  | unknownQuery src tag kind args => exact execUnknownQuery_inClass src tag kind args s
  | postCheck src tag args => exact query_inClass 1 23 true src tag args (keepsClass_postCases (postingOf args)) s
  | withdrawCheck src tag args => exact query_inClass 2 1 false src tag args (keepsClass_withdraw _) s
  | readCheck src tag args => exact query_inClass 3 1 false src tag args (keepsClass_readEntry _) s
  | history src tag args => exact query_inClass 4 19 false src tag args (keepsClass_historyCases src tag args) s
  | historyCancel src tag args => exact query_inClass 5 0 false src tag args (keepsClass_cancelCases src) s
  | raiseMark src tag args => exact query_inClass 6 12 true src tag args (keepsClass_raiseCases args) s
  | releaseHold src tag args => exact query_inClass 7 2 false src tag args (keepsClass_releaseCases args) s
  | setDial src tag args => exact query_inClass 8 4 true src tag args (keepsClass_setDialCases args) s
  | readDial src tag args => exact query_inClass 9 1 false src tag args (keepsClass_readDialCases args) s
  | serviceReset src tag args => exact query_inClass 10 1 true src tag args (keepsClass_resetCases args) s
  | readPoint src tag args => exact query_inClass 11 1 false src tag args (keepsClass_readPointCases args) s
  | readStatus src tag args => exact query_inClass 12 1 false src tag args (keepsClass_statusCases args) s
  | clearAlarms src tag args => exact query_inClass 13 2 false src tag args (keepsClass_clearCases args) s
  | restart src tag args => exact query_inClass 14 0 false src tag args keepsClass_restartCases s
  | newsBatchWaitEnd => exact execNewsBatchWaitEnd_inClass s
  | historyVisit => exact execHistoryVisit_inClass s
  | holdWalkVisit o n => exact execHoldWalkVisit_inClass o n s
  | holdCloseDeadline o n => exact execHoldCloseDeadline_inClass o n s
  | startDeadline p => exact execStartDeadline_inClass p s
  | strokeDeadline p => exact execStrokeDeadline_inClass p s
  | checkOpening e => exact execCheckOpening_inClass e s
  | checkDecision e => exact execCheckDecision_inClass e s
  | targetChange l => exact execTargetChange_inClass l s
  | pulseEnd l => exact execPulseEnd_inClass l s
  | spacingWaitEnd l => exact execSpacingWaitEnd_inClass l s
  | testWaitEnd l => exact execTestWaitEnd_inClass l s
  | testPulseEnd l => exact execTestPulseEnd_inClass l s
  | lineBusy => exact execLineBusy_inClass s
  | referenceCharacter c e => exact execReferenceCharacter_inClass c e s
  | byteNotAcknowledged => exact execByteNotAcknowledged_inClass s

theorem keepsClass_period (s : State) : KeepsClass s (period s) :=
  .of_same (by rw [period_clock]; rfl) (by rw [period_agree])

theorem keepsClass_pick (l : List Instr) (s : State) : KeepsClass s (pick l s) := by
  unfold pick
  split
  · exact .refl s
  · exact .of_same
  · split
    · exact .of_same
    · exact .refl s

theorem keepsClass_moveOn (s : State) : KeepsClass s (moveOn s) := by
  unfold moveOn
  split
  · exact keepsClass_period s
  · exact keepsClass_pick _ s

theorem keepsClass_idle (s : State) : KeepsClass s (idle s) := by
  unfold idle
  split
  · split
    · exact keepsClass_moveOn s
    · exact .either (.trans .of_same (keepsClass_moveOn _)) (.trans .of_same (keepsClass_pick _ _))
  · exact keepsClass_pick _ s

theorem step_inClass (s : State) : AnswersInClass s (step s) := by
  unfold step
  split
  · rintro t ⟨⟩
    exact keepsClass_idle s
  · intro t h
    exact .trans .of_same (exec_inClass _ _ t h)

/-! ### The statement -/

theorem betterClass_some (a b : ClockClass) : betterClass (some a) b = some (if b.number < a.number then b else a) :=
  (apply_ite some _ _ _).symm

/-- The table of R9, state by state. -/
theorem classFollowsState_iff (s : State) :
    classFollowsState s ↔
      (s.clock.cls = .ref ∧ s.agree.state = .reference) ∨ (s.clock.cls = .agreed ∧ s.agree.state = .locked) ∨
        (s.clock.cls = .drifting ∧ (s.agree.state = .acquiring ∨ s.agree.state = .holdover)) ∨
        (s.clock.cls = .unset ∧ s.agree.state = .unset) := by
  unfold classFollowsState
  cases s.agree.state <;> simp [classOf]

theorem restartPin_class {s t : State} (hedge : s.pins.restartEdge = true) (h : exec .restartPin s = .next t) :
    t.clock.cls = (if s.agree.state = .unset then .unset else .drifting) ∧ classFollowsState t := by
  have hexec : exec .restartPin s = finish (warmRestart .pin (s.setPins { s.pins with restartEdge := false })) := if_pos hedge
  obtain rfl := Host.Outcome.next.inj (hexec.symm.trans h)
  have latched := writes_relatch (warmRestart .pin (s.setPins { s.pins with restartEdge := false }))
  refine ⟨?_, latched.keepsClass.follows (warmRestart_follows ..)⟩
  rw [latched.clock, warmRestart_cls]
  rfl

/-- Settles O7: every command of the agreement unit enters its states by `enterAgreement`, a restart sets the class with the state, and every other
command leaves both alone. -/
theorem theClassFollowsTheAgreementState : Obligations.TheClassFollowsTheAgreementState := by
  unfold Obligations.TheClassFollowsTheAgreementState
  refine ⟨⟨rfl, rfl, rfl, rfl, betterClass_some⟩, classFollowsState_iff, fun s t hs h => (step_inClass s t h).follows hs, fun s t h => ?_,
    fun s t hedge h => restartPin_class hedge h, fun s x hs hstate hx => ?_⟩
  · rw [(execPowerOn_next h).1]
    rfl
  · have hdrifting : s.clock.cls = classOf x := by
      unfold classFollowsState at hs
      rcases hstate with hstate | hstate <;> rcases hx with rfl | rfl <;> rw [hs, hstate] <;> rfl
    obtain ⟨hclock, hjournal⟩ := enterAgreement_sameClass hdrifting
    exact ⟨hclock, hjournal, enterAgreement_state x s⟩

end Sys2Proof.Machine
end

section
/-! SUPPORT. Empty intervals in Locked (R28, R39): the best class heard, the member set by it, an interval end cut into what the agreement
state does and the closing that follows, and the statement. -/

namespace Sys2Proof.Machine

/-! ### The best class heard, and the member set (R28) -/

/-- The class that a peer was heard with in the interval. -/
def Peer.heardClass (p : Peer) : Option ClockClass := if p.heard = true then p.cls else none

theorem Peer.heardClass_eq_some {p : Peer} {c : ClockClass} : p.heardClass = some c ↔ p.heard = true ∧ p.cls = some c := by
  simp [Peer.heardClass]

/-- The better of two classes is the step of a search for the least number. -/
theorem betterClass_eq_argAux :
    betterClass = List.argAux (fun b c : ClockClass => b.number < c.number) := by
  funext a b
  cases a <;> rfl

/-- B is the first class of least number among those heard. -/
theorem bestHeard_eq_argmin (peers : Vector Peer 32) :
    bestHeard peers = (peers.toList.filterMap Peer.heardClass).argmin ClockClass.number := by
  unfold bestHeard List.argmin
  rw [← betterClass_eq_argAux, List.foldl_filterMap]
  congr 1
  funext acc p
  cases hheard : p.heard <;> cases hcls : p.cls <;> simp [Peer.heardClass, hheard, hcls]

theorem mem_heardClasses {peers : Vector Peer 32} {c : ClockClass} :
    c ∈ peers.toList.filterMap Peer.heardClass ↔ ∃ i : Station, peers[i].heard = true ∧ peers[i].cls = some c := by
  simp only [List.mem_filterMap, Peer.heardClass_eq_some, Vector.mem_toList_iff, Vector.mem_iff_getElem]
  constructor
  · rintro ⟨p, ⟨i, hi, rfl⟩, h⟩
    exact ⟨⟨i, hi⟩, h⟩
  · rintro ⟨i, h⟩
    exact ⟨peers[i], ⟨i.val, i.isLt, rfl⟩, h⟩

/-- B is the class of a peer heard. -/
theorem exists_heard_of_bestHeard {peers : Vector Peer 32} {best : ClockClass} (h : bestHeard peers = some best) :
    ∃ i : Station, peers[i].heard = true ∧ peers[i].cls = some best := by
  rw [bestHeard_eq_argmin] at h
  exact mem_heardClasses.mp (List.argmin_mem h)

/-- A peer heard with a class means a best class, none worse. -/
theorem bestHeard_le {peers : Vector Peer 32} {i : Station} {c : ClockClass} (hheard : peers[i].heard = true)
    (hcls : peers[i].cls = some c) : ∃ best, bestHeard peers = some best ∧ best.number ≤ c.number := by
  have hmem : c ∈ peers.toList.filterMap Peer.heardClass := mem_heardClasses.mpr ⟨i, hheard, hcls⟩
  rw [bestHeard_eq_argmin]
  cases hbest : (peers.toList.filterMap Peer.heardClass).argmin ClockClass.number with
  | none =>
    rw [List.argmin_eq_none.mp hbest] at hmem
    exact absurd hmem List.not_mem_nil
  | some best => exact ⟨best, rfl, List.le_of_mem_argmin hmem hbest⟩

/-- A peer heard with class B and an offset is one of class B. -/
theorem mem_peersOfClass {peers : Vector Peer 32} {best : ClockClass} {i : Station} {offset : Int} (hheard : peers[i].heard = true)
    (hcls : peers[i].cls = some best) (hoffset : peers[i].offset = some offset) : (offset, i) ∈ peersOfClass peers best := by
  refine List.mem_filterMap.mpr ⟨i, List.mem_finRange i, ?_⟩
  rw [hheard, hcls, hoffset]
  exact if_pos rfl

/-- The interval is empty where every peer heard with a class was heard with one worse than the own class (R28). -/
theorem memberSet_eq_nil {peers : Vector Peer 32} (me : Station) {ownClass : ClockClass}
    (h : ∀ (i : Station) (c : ClockClass), peers[i].heard = true → peers[i].cls = some c → ownClass.number < c.number) :
    memberSet peers me ownClass = [] := by
  unfold memberSet
  cases hbest : bestHeard peers with
  | none => rfl
  | some best =>
    obtain ⟨i, hheard, hcls⟩ := exists_heard_of_bestHeard hbest
    exact if_neg (Nat.not_le.mpr (h i best hheard hcls))

/-- A peer heard with a class no worse than the own class makes members, where every peer heard has an offset (R28). -/
theorem memberSet_ne_nil {peers : Vector Peer 32} (me : Station) {ownClass c : ClockClass} {i : Station}
    (hoffsets : ∀ j : Station, peers[j].heard = true → peers[j].offset.isSome = true) (hheard : peers[i].heard = true)
    (hcls : peers[i].cls = some c) (hle : c.number ≤ ownClass.number) : memberSet peers me ownClass ≠ [] := by
  obtain ⟨best, hbest, hbetter⟩ := bestHeard_le hheard hcls
  obtain ⟨j, hj, hjcls⟩ := exists_heard_of_bestHeard hbest
  obtain ⟨offset, hoffset⟩ := Option.isSome_iff_exists.mp (hoffsets j hj)
  have hne := List.ne_nil_of_mem (mem_peersOfClass hj hjcls hoffset)
  simp only [memberSet, hbest, if_pos (hbetter.trans hle)]
  cases hpeers : peersOfClass peers best with
  | nil => exact absurd hpeers hne
  | cons m rest => split <;> simp

theorem number_worse_than_agreed {c : ClockClass} : ClockClass.agreed.number < c.number ↔ c = .drifting ∨ c = .unset := by
  cases c <;> decide

/-- In class AGREED the interval is empty exactly when every beacon heard in it is DRIFTING, as none heard is UNSET (R26, R39). -/
theorem members_eq_nil_iff {s : State} (hsound : agreementSound s) (hcls : s.clock.cls = .agreed) :
    members s = [] ↔ ∀ i : Station, s.agree.peers[i].heard = true → s.agree.peers[i].cls = some .drifting := by
  obtain ⟨-, -, -, -, -, -, -, -, hpeers⟩ := hsound
  unfold members
  rw [hcls]
  constructor
  · intro hnil i hheard
    obtain ⟨-, hclass, hset⟩ := (hpeers i).2 hheard
    obtain ⟨c, hc⟩ := Option.isSome_iff_exists.mp hclass
    have hworse : ClockClass.agreed.number < c.number := Nat.lt_of_not_le fun hle =>
      memberSet_ne_nil _ (fun j hj => ((hpeers j).2 hj).1) hheard hc hle hnil
    rcases number_worse_than_agreed.mp hworse with rfl | rfl
    · exact hc
    · exact absurd hc hset
  · intro h
    refine memberSet_eq_nil _ fun i c hheard hc => number_worse_than_agreed.mpr (.inl ?_)
    exact Option.some.inj (hc.symm.trans (h i hheard))

/-! ### An interval end, cut into its steps (R22) -/

/-- The slew has ended (R5). -/
def slewEnded (s : State) : State := s.setClock { s.clock with slew := 0 }

/-- What an interval end that is due does, outside a fast slew. -/
theorem exec_intervalEnd_due {s : State} (h : intervalDue s) :
    exec .intervalEnd s = finish (countSilence (closeInterval (workOut (slewEnded s)))) := by
  obtain ⟨hslew, x, htimer, hreached⟩ := h
  have hdue : intervalReached s = true := by simp [intervalReached, htimer, hreached]
  have hexec : exec .intervalEnd s = finish (endInterval s) := if_pos hdue
  rw [hexec]
  simp [endInterval, slewEnded, hslew]

/-- Closing the interval and counting silence do what `intervalClosed` says, and what the reports of silence bring about. -/
theorem countSilence_closeInterval (s : State) : Follows (intervalClosed s) (countSilence (closeInterval s)) :=
  follows_makeUncertain _ _

theorem countSilence_closeInterval_emptyCount (s : State) :
    (countSilence (closeInterval s)).agree.emptyCount = s.agree.emptyCount := by
  rw [(countSilence_closeInterval s).agree]
  rfl

/-- The closing of an interval may come before the writes that it follows: they neither change nor read what it closes. -/
theorem Delivered.closed {s t : State} (h : Delivered s t) : Delivered (intervalClosed s) (intervalClosed t) :=
  { h with
    agree := by simp only [intervalClosed, State.setNews_agree, State.setLine_agree, State.setAgree_agree, h.agree, h.settings]
    trouble := rfl
    heard := rfl
    silence := by
      have hown : own t = own s := congrArg ConfigUnit.station h.config
      simp only [intervalClosed, State.setNews_news, h.heard, h.silence, hown] }

theorem wroteFirst.closed {r : Record} {s u t : State} (h : wroteFirst r s u) (k : Delivered (intervalClosed u) t) :
    wroteFirst r (intervalClosed s) t := by
  obtain ⟨hdelivered, more, hjournal⟩ := h
  obtain ⟨rest, hrest⟩ := k.journal
  refine ⟨hdelivered.closed.trans k, more ++ rest, ?_⟩
  calc t.journal = u.journal.writeAll rest := hrest
    _ = s.journal.writeAll (r :: (more ++ rest)) := by rw [hjournal, ← Journal.writeAll_append, List.cons_append]

/-! ### What the agreement state does (R35, R36, R39) -/

/-- What status keeps of the interval's member set (R28). -/
def summary (s : State) : MemberSummary :=
  { noPeer := (members s).isEmpty, best := bestHeard s.agree.peers, count := (members s).length }

/-- The summary of the member set is kept. -/
def summarized (s : State) : State := s.setAgree { s.agree with lastSet := some (summary s) }

/-- Locked, an interval with no members: the empty count takes it. -/
theorem workOut_lockedEmpty {s : State} (hstate : s.agree.state = .locked) (hempty : members s = []) :
    workOut s = lockedEmpty (summarized s) := by
  have hset : memberSet s.agree.peers (own s) s.clock.cls = [] := hempty
  simp [workOut, summarized, summary, hstate, hset, hempty]

/-- Outside Reference, an interval with members takes their midpoint. -/
theorem workOut_members {s : State} (hstate : s.agree.state ≠ .reference) (hmembers : members s ≠ []) :
    workOut s = takeMidpoint (members s) (summarized s) := by
  obtain ⟨m, rest, hm⟩ := List.exists_cons_of_ne_nil hmembers
  have hset : memberSet s.agree.peers (own s) s.clock.cls = m :: rest := hm
  simp [workOut, summarized, summary, hstate, hset, hm]

theorem lockedEmpty_counts {s : State} (h : s.agree.emptyCount < 3) :
    lockedEmpty s = s.setAgree { s.agree with emptyCount := s.agree.emptyCount + 1 } :=
  if_neg (by omega)

theorem lockedEmpty_fourth {s : State} (h : 3 ≤ s.agree.emptyCount) : lockedEmpty s = enterAgreement .holdover s :=
  if_pos (by omega)

/-- An agreement state entered, its counts at 0 and its class taken, before CLASS_CHANGE is written (R9, R35). -/
def entered (x : AgreementState) (s : State) : State :=
  (s.setClock { s.clock with cls := classOf x }).setAgree
    { s.agree with state := x, lockCount := 0, disputeCount := 0, emptyCount := 0 }

/-- The CLASS_CHANGE record of a state entered (R11). -/
def classChange (x : AgreementState) (s : State) : Record :=
  plainDraft .clock ⟨s.clock.lineTime, classOf x⟩ 0 2 (some (classOf x).number) s

theorem classChange_tells (x : AgreementState) (s : State) :
    tells (classChange x s) .clock ⟨s.clock.lineTime, classOf x⟩ 0 2 (some (classOf x).number) :=
  ⟨rfl, rfl, rfl, rfl, rfl, rfl⟩

/-- A state of another class is entered with CLASS_CHANGE, and nothing else is written (R9). -/
theorem enterAgreement_classChange {x : AgreementState} {s : State} (h : s.clock.cls ≠ classOf x) :
    justWrote (classChange x s) (entered x s) (enterAgreement x s) := by
  have htake : takeClass (classOf x)
      (s.setAgree { s.agree with state := x, lockCount := 0, disputeCount := 0, emptyCount := 0 }) =
        writeRecord (classChange x s) (entered x s) := if_neg h
  have hlatch := enterAgreement_writes x s
  rw [htake] at hlatch
  obtain ⟨hwrote, caused, hjournal, hcaused⟩ := writeRecord_justWrote (classChange x s) (entered x s)
  refine ⟨hwrote.trans hlatch.toWrote, caused, ?_, hcaused⟩
  unfold enterAgreement
  rw [latchIf_journal, htake, hjournal]

theorem justWrote.wroteFirst {r : Record} {s t : State} (h : justWrote r s t) : wroteFirst r s t := by
  obtain ⟨hwrote, caused, hjournal, -⟩ := h
  exact ⟨hwrote.toDelivered, caused, hjournal⟩

/-! ### An interval that is not empty sets the empty count to 0 -/

theorem expireOwner_agree (s : State) (x : DeadlineOwner) : (expireOwner s x).agree = s.agree := by
  cases x with
  | point p => exact (follows_expirePoint p s).agree
  | entry e => exact (follows_settleEntry e s).agree
  | hold o n => exact (writes_latchIf .hold _ (s.setMarks _)).agree
  | dial l =>
    simp only [expireOwner, expireDial]
    split
    · exact (writes_latchIf .dial _ (s.setDials _)).agree
    · rfl

/-- Deadlines expire without a change of the agreement unit. -/
theorem expireReached_agree (s : State) : (expireReached s).agree = s.agree := by
  have hfold : ∀ (l : List DeadlineOwner) (u : State), (l.foldl expireOwner u).agree = u.agree := by
    intro l u
    induction l generalizing u with
    | nil => rfl
    | cons x rest ih => exact (ih (expireOwner u x)).trans (expireOwner_agree u x)
  exact (hfold _ _).trans (writes_inAnyOrder _ s).agree

theorem setPhase_emptyCount (s : State) : (setPhase s).agree.emptyCount = s.agree.emptyCount := by
  unfold setPhase
  dsimp only
  split
  · unfold phaseFallsDue
    dsimp only
    split <;> rfl
  · rfl

theorem afterJump_emptyCount (s : State) : (afterJump s).agree.emptyCount = s.agree.emptyCount := by
  rw [← expireReached_agree s]
  unfold afterJump passPhase
  split
  · split
    · exact setPhase_emptyCount _
    · rfl
  · rfl

theorem afterStep_emptyCount (c : Int) (s : State) : (afterStep c s).agree.emptyCount = s.agree.emptyCount := by
  unfold afterStep
  split
  · exact afterJump_emptyCount s
  · rfl

theorem enterAgreement_emptyCount (x : AgreementState) (s : State) : (enterAgreement x s).agree.emptyCount = 0 := by
  rw [(enterAgreement_writes x s).agree, takeClass_agree]
  rfl

/-- Small, disputed, or the third dispute: a midpoint in Locked ends the row of empty intervals (R38, R39). -/
theorem stayLocked_emptyCount (c : Int) (s : State) : (stayLocked c s).agree.emptyCount = 0 := by
  unfold stayLocked
  split
  · rfl
  · split
    · exact (afterStep_emptyCount c _).trans (enterAgreement_emptyCount .acquiring _)
    · rfl

theorem takeMidpoint_locked_emptyCount (ms : List Member) {s : State} (hstate : s.agree.state = .locked) :
    (takeMidpoint ms s).agree.emptyCount = 0 := by
  simp only [takeMidpoint, State.setAgree_agree, hstate]
  exact stayLocked_emptyCount (midpoint ms) _

/-! ### The statement -/

/-- An empty interval end in Locked, up to the closing of the interval (R39). -/
theorem lockedEmpty_intervalEnd {s : State} (hstate : s.agree.state = .locked) (hcls : s.clock.cls = .agreed) (hdue : intervalDue s)
    (hempty : members s = []) :
    ∃ (t : State) (x : MemberSummary), exec .intervalEnd s = .next t ∧ x.noPeer = true ∧ x.count = 0 ∧
      (s.agree.emptyCount < 3 →
        Delivered (intervalClosed ((s.setClock { s.clock with slew := 0 }).setAgree
          { s.agree with emptyCount := s.agree.emptyCount + 1, lastSet := some x })) t) ∧
      (3 ≤ s.agree.emptyCount →
        ∃ r, wroteFirst r (intervalClosed ((s.setClock { s.clock with slew := 0, cls := .drifting }).setAgree
            { s.agree with state := .holdover, lockCount := 0, disputeCount := 0, emptyCount := 0, lastSet := some x })) t ∧
          tells r .clock ⟨s.clock.lineTime, .drifting⟩ 0 2 (some 2)) := by
  have hwork : workOut (slewEnded s) = lockedEmpty (summarized (slewEnded s)) := workOut_lockedEmpty hstate hempty
  have hexec := exec_intervalEnd_due hdue
  rw [hwork] at hexec
  have hclose := (countSilence_closeInterval (lockedEmpty (summarized (slewEnded s)))).trans (follows_relatch _)
  refine ⟨_, summary (slewEnded s), hexec, congrArg List.isEmpty hempty, congrArg List.length hempty, fun hfew => ?_, fun hthree => ?_⟩
  · rw [lockedEmpty_counts (s := summarized (slewEnded s)) hfew] at hclose ⊢
    exact hclose.toDelivered
  · have hchange : (summarized (slewEnded s)).clock.cls ≠ classOf .holdover := by
      change s.clock.cls ≠ .drifting
      rw [hcls]
      decide
    rw [lockedEmpty_fourth (s := summarized (slewEnded s)) hthree] at hclose ⊢
    exact ⟨_, (enterAgreement_classChange hchange).wroteFirst.closed hclose.toDelivered, classChange_tells .holdover _⟩

/-- An interval end in Locked that has members leaves the empty count at 0 (R38, R39). -/
theorem locked_intervalEnd_emptyCount {s t : State} (hstate : s.agree.state = .locked) (hdue : intervalDue s)
    (hmembers : members s ≠ []) (h : exec .intervalEnd s = .next t) : t.agree.emptyCount = 0 := by
  have hout : s.agree.state ≠ .reference := by rw [hstate]; decide
  rw [exec_intervalEnd_due hdue] at h
  obtain rfl := Host.Outcome.next.inj h
  rw [(writes_relatch _).agree, countSilence_closeInterval_emptyCount,
    workOut_members (s := slewEnded s) hout hmembers]
  exact takeMidpoint_locked_emptyCount _ hstate

/-- Settles O13: the member set decides whether an interval is empty, Locked counts the empty ones, and the closing of the interval changes
nothing that the CLASS_CHANGE of the fourth touches. -/
theorem emptyIntervalsInLocked : Obligations.EmptyIntervalsInLocked := by
  unfold Obligations.EmptyIntervalsInLocked
  refine ⟨fun s hstate hcls hdue hheard => lockedEmpty_intervalEnd hstate hcls hdue ?_, fun s => members_eq_nil_iff,
    fun s t => locked_intervalEnd_emptyCount, rfl⟩
  unfold members
  rw [hcls]
  refine memberSet_eq_nil _ fun i c hi hc => number_worse_than_agreed.mpr ?_
  have hworse := hheard i hi
  rw [hc, Option.some.injEq, Option.some.injEq] at hworse
  exact hworse

end Sys2Proof.Machine
end

section
/-! SUPPORT. A sample that comes when it is due (R68), what it makes of one channel (R69, R71), and the statement about a reverted run. -/

namespace Sys2Proof.Machine

/-! ### A sample that is due (R68) -/

theorem exec_sample_due {contacts : BitVec 64} {reference restart : Bool} {sense : BitVec 4} {s : State}
    (hdue : s.input.nextSample ≤ s.clock.osc) :
    exec (.sample contacts reference restart sense) s = .next (relatch (takeSample contacts reference restart sense s)) :=
  if_pos hdue

/-- A sample treats every channel by its own contact, and latching alarms after it leaves the channels as they are. -/
theorem sample_channel (contacts : BitVec 64) (reference restart : Bool) (sense : BitVec 4) (s : State) (i : InputNo) :
    (relatch (takeSample contacts reference restart sense s)).input.channels[i] =
      sampleChannel (contacts.getLsbD i.val) (now s) s.input.channels[i] := by
  rw [(writes_relatch _).input]
  exact Vector.getElem_ofFn _

/-- A sample changes the input unit, the pins, the port and the impulse lines, and latches alarms: no record, delivery or news comes of it. -/
theorem sample_onlyChanges (contacts : BitVec 64) (reference restart : Bool) (sense : BitVec 4) (s : State) :
    onlyChanges [.input, .pins, .port, .dials, .alarms] s (relatch (takeSample contacts reference restart sense s)) := by
  intro b hb
  cases b with
  | input | pins | port | dials | alarms => exact absurd hb (by decide)
  | _ => simp [Block.same, relatch, takeSample]

/-! ### An accepting channel at a sample (R69, R71) -/

/-- A run that has not lasted the filter time is dropped at a sample of another level. -/
theorem sampleChannel_drops {c : Channel} {r : Run} {closed : Bool} {d : Date} (hmode : c.mode = .normal ∨ c.mode = .chattering)
    (hrun : c.run = some r) (hother : r.level ≠ levelOf c.defn closed) (hyoung : r.age < 10 * c.defn.filterMs) :
    sampleChannel closed d c = { c with reading := some (levelOf c.defn closed), run := none } := by
  have hgoes : ¬ (r.level = levelOf c.defn closed ∨ matured c.defn r = true) := by
    rintro (hsame | hold)
    · exact hother hsame
    · exact absurd (of_decide_eq_true hold) (Nat.not_le.mpr hyoung)
  rcases hmode with h | h <;> simp only [sampleChannel, h, hrun, if_neg hgoes]

/-- Where none is under way, a run begins at a sample of a level that is not the accepted one. -/
theorem sampleChannel_begins {c : Channel} {closed : Bool} {d : Date} (hmode : c.mode = .normal ∨ c.mode = .chattering)
    (hrun : c.run = none) (hchange : c.accepted ≠ some (levelOf c.defn closed)) :
    (sampleChannel closed d c).run = some ⟨levelOf c.defn closed, d, 0⟩ := by
  rcases hmode with h | h <;> simp only [sampleChannel, h, hrun, if_neg hchange]

/-! ### The statement -/

/-- Settles O28: the sample of the accepted level drops the run and touches the input unit, the pins, the port and the dials alone, and what
it leaves of the channel begins a run at the next sample of the other level. -/
theorem aRevertedRunLeavesNoTrace : Obligations.ARevertedRunLeavesNoTrace := by
  unfold Obligations.ARevertedRunLeavesNoTrace
  intro s i r accepted contacts reference restart sense hdue hmode haccepted hread hrun hlevel hyoung
  have hdropped : (relatch (takeSample contacts reference restart sense s)).input.channels[i] =
      { s.input.channels[i] with reading := some accepted, run := none } := by
    rw [sample_channel, sampleChannel_drops hmode hrun (hread ▸ hlevel) hyoung, hread]
  have hframe := sample_onlyChanges contacts reference restart sense s
  refine ⟨_, exec_sample_due hdue, hdropped, hframe .journal (by decide), hframe .news (by decide), hframe .points (by decide),
    hframe .checks (by decide), hframe .reader (by decide), hframe .marks (by decide), fun u again hchannel hagain hback =>
    ⟨_, exec_sample_due hagain, ?_⟩⟩
  rw [hdropped] at hchannel
  have hchange : u.input.channels[i].accepted ≠ some (levelOf u.input.channels[i].defn (again.getLsbD i.val)) := by
    rw [hback, hchannel, haccepted]
    exact fun h => hlevel (Option.some.inj h).symm
  rw [sample_channel, sampleChannel_begins (hchannel ▸ hmode) (by rw [hchannel]) hchange, hback]
  rfl

end Sys2Proof.Machine
end

section
/-! SUPPORT. Movements of a point that end: what leaves the points table alone, changes of that table that write nothing (`Repoints`), the
outcome of a movement and the service counter after it (R134, R135, R137, R144), and the statement about OVERTIME (R131). -/

namespace Sys2Proof.Machine

/-! ### What leaves the points table alone

A point's outcome is handed on to the check entries before its movement is counted (the model's choice, log entry 34); the counter then
stands as it stood. -/

theorem writeRecord_points (r : Record) (s : State) : (writeRecord r s).points = s.points := (writeRecord_writes r s).points

theorem setHolds_points (hs : List Hold) (s : State) : (setHolds hs s).points = s.points := (writes_latchIf _ _ _).points

theorem makeHold_points (code : Nat) (m : MarkInfo) (s : State) : (makeHold code m s).points = s.points := by
  unfold makeHold
  dsimp only
  split <;> simp only [writeRecord_points, setHolds_points]

theorem applyRaised_points (m : MarkInfo) (s : State) : (applyRaised m s).points = s.points := by
  unfold applyRaised
  split
  · exact writeRecord_points _ s
  · split
    · exact makeHold_points 0 m s
    · exact (writeRecord_points _ _).trans (writeRecord_points _ s)

theorem broadcast_points (m : MarkInfo) (s : State) : (broadcast m s).points = s.points := by
  unfold broadcast placeMark
  repeat' split
  all_goals rfl

theorem raiseMark_points (reason subject : Byte) (time : LineTime) (pre post : Nat) (s : State) :
    (raiseMark reason subject time pre post s).points = s.points :=
  (applyRaised_points _ _).trans (broadcast_points _ _)

theorem giveBack_points (c : CheckEntry) (s : State) : (giveBack c s).points = s.points := by
  unfold giveBack
  repeat' split
  all_goals rfl

theorem decideEntry_points (e : EntryNo) (c : CheckEntry) (s : State) : (decideEntry e c s).points = s.points := by
  have hgiven : ∀ (done : Bool) (x : CheckEntry) (u : State), (if done = true then giveBack x u else u).points = u.points := by
    intro done x u
    split
    · exact giveBack_points x u
    · rfl
  have hmarked : ∀ (marks : Bool) (u : State),
      (if marks = true then raiseMark reasonCheck (byteOf e.val) c.closeAt 600 60 u else u).points = u.points := by
    intro marks u
    split
    · exact raiseMark_points ..
    · rfl
  have hwritten : ∀ (missed : Bool) (r : Record) (x : Option CheckEntry),
      (latchIf .check missed (writeRecord r (setEntry e x s))).points = s.points := fun missed r x =>
    (writes_latchIf .check missed _).points.trans (writeRecord_points r _)
  exact (hgiven _ _ _).trans ((hmarked _ _).trans (hwritten _ _ _))

theorem runEntry_points (n : Nat) (e : EntryNo) (s : State) : (runEntry n e s).points = s.points := by
  induction n generalizing s with
  | zero => rfl
  | succ n ih =>
    unfold runEntry
    split
    · rfl
    · split
      · split
        · exact ih _
        · exact (ih _).trans (decideEntry_points ..)
        · exact (ih _).trans (decideEntry_points ..)
        · rfl
      · rfl

theorem settleEntry_points (e : EntryNo) (s : State) : (settleEntry e s).points = s.points := by
  unfold settleEntry
  split
  · rfl
  · exact runEntry_points _ e s

theorem deliverPointToCheck_points (p : PointNo) (outcome : PointOutcome) (entered : PointState) (date : Date) (e : EntryNo) (s : State) :
    (deliverPointToCheck p outcome entered date e s).points = s.points := by
  have hput : ∀ (x : CheckEntry) (again : Bool),
      (if again = true then settleEntry e (setEntry e (some x) s) else setEntry e (some x) s).points = s.points := by
    intro x again
    split
    · exact settleEntry_points e _
    · rfl
  unfold deliverPointToCheck
  split
  · split
    · split
      · exact hput _ _
      · rfl
    · rfl
  · rfl

section
variable {p : PointNo} {outcome : PointOutcome} {entered : PointState} {date : Date} {s t : State}

theorem deliveredToEntries.points (h : deliveredToEntries p outcome entered date s t) : t.points = s.points := by
  obtain ⟨order, n, -, -, rfl⟩ := h
  have hfold : ∀ u : State, (order.foldl (fun u e => deliverPointToCheck p outcome entered date e u) u).points = u.points := by
    induction order with
    | nil => exact fun u => rfl
    | cons e rest ih => exact fun u => (ih _).trans (deliverPointToCheck_points ..)
  exact hfold (s.setChoices n)

theorem deliveredToEntries.follows (h : deliveredToEntries p outcome entered date s t) : Follows s t := by
  obtain ⟨order, n, -, -, rfl⟩ := h
  exact (writes_setChoices n s).follows.trans (follows_fold _ (fun u e => follows_deliverPointToCheck p outcome entered date e u) _ _)

end

/-! ### Changes of the points table that write nothing -/

/-- `t` comes about from `s` by changing points, their definitions apart, and latching what then stands; no record is written. -/
structure Repoints (s t : State) : Prop where
  delivered : Delivered s t
  wrote : Wrote (s.setPoints t.points) t
  journal : t.journal = s.journal

/-- Records that are delivered to no point may be written before the points table is replaced. -/
theorem Wrote.withPoints {s t : State} (h : Wrote s t) (points : Vector Point 32) : Wrote (s.setPoints points) (t.setPoints points) :=
  { h with points := rfl, definitions := fun _ => rfl, latched := h.latched }

theorem Repoints.trans {s t u : State} (h : Repoints s t) (k : Repoints t u) : Repoints s u where
  delivered := h.delivered.trans k.delivered
  wrote := (h.wrote.withPoints u.points).trans k.wrote
  journal := k.journal.trans h.journal

theorem repoints_setPoint (p : PointNo) (x : Point) (s : State) (h : x.defn = s.points[p].defn) : Repoints s (setPoint p x s) where
  delivered := (follows_setPoint p x s h).toDelivered
  wrote := by
    rw [setPoint_points]
    exact (writes_latchIf ..).toWrote
  journal := latchIf_journal ..

/-- A record written after such a change. -/
theorem Repoints.justWrote {s t u : State} {r : Record} (h : Repoints s t) (k : justWrote r t u) :
    justWrote r (s.setPoints t.points) u := by
  obtain ⟨hwrote, caused, hjournal, hcaused⟩ := k
  exact ⟨h.wrote.trans hwrote, caused, hjournal.trans (by rw [h.journal]; rfl), hcaused⟩

/-- A record written first, and what follows from its deliveries. -/
theorem Repoints.wroteFirst {s t u v : State} {r : Record} (h : Repoints s t) (k : Machine.justWrote r t u) (f : Follows u v) :
    wroteFirst r s v := by
  obtain ⟨hwrote, caused, hjournal, -⟩ := k
  obtain ⟨more, hmore⟩ := f.journal
  refine ⟨(h.delivered.trans hwrote.toDelivered).trans f.toDelivered, caused ++ more, ?_⟩
  rw [hmore, hjournal, h.journal, ← Journal.writeAll_append, List.cons_append]

/-! ### An outcome of a point (R134, R135, R144) -/

theorem durationMs_eq (later earlier : Date) : durationMs later earlier = min 2147483647 ((later.time - earlier.time) / 1000) := by
  rw [durationMs, Int.toNat_sub]

/-- The POINT record of an outcome. -/
def outcomeRecord (p : PointNo) (outcome : PointOutcome) (date : Date) (value : Option Nat) (uncertain : Bool) : Record :=
  draft .point date p.val (pointCode outcome) (value.map Int.ofNat) uncertain

theorem outcomeRecord_tells (p : PointNo) (outcome : PointOutcome) (date : Date) (value : Option Nat) (uncertain : Bool) :
    tells (outcomeRecord p outcome date value uncertain) .point date p.val (pointCode outcome) (value.map Int.ofNat) :=
  ⟨rfl, rfl, rfl, rfl, rfl, rfl⟩

/-- A point that keeps its latest outcome (R135). -/
def withOutcome (p : PointNo) (outcome : PointOutcome) (date : Date) (s : State) : State :=
  setPoint p { s.points[p] with lastOutcome := some (outcome, date) } s

theorem repoints_withOutcome (p : PointNo) (outcome : PointOutcome) (date : Date) (s : State) :
    Repoints s (withOutcome p outcome date s) :=
  repoints_setPoint p _ s rfl

/-- An outcome that is no failure raises no mark: its record is written and handed on to the check entries of the point. -/
theorem writeOutcome_spec (p : PointNo) {outcome : PointOutcome} (date : Date) (value : Option Nat) (uncertain : Bool) (s : State)
    (h : outcome.failure = false) :
    ∃ u, justWrote (outcomeRecord p outcome date value uncertain) (withOutcome p outcome date s) u ∧
      deliveredToEntries p outcome s.points[p].state date u (writeOutcome p outcome date value uncertain s) := by
  refine ⟨_, writeRecord_justWrote _ _, ?_⟩
  unfold writeOutcome
  simp only [h, Bool.and_false, Bool.false_eq_true, if_false]
  split <;> exact deliverPoint_spec ..

/-- Such an outcome leaves the point as it stood, but for the latest outcome. -/
theorem writeOutcome_point (p : PointNo) {outcome : PointOutcome} (date : Date) (value : Option Nat) (uncertain : Bool) (s : State)
    (h : outcome.failure = false) :
    (writeOutcome p outcome date value uncertain s).points[p] = { s.points[p] with lastOutcome := some (outcome, date) } := by
  obtain ⟨u, ⟨hwrote, -⟩, hdelivered⟩ := writeOutcome_spec p date value uncertain s h
  rw [hdelivered.points, hwrote.points, withOutcome, setPoint_self]

/-! ### The service counter (R137) -/

theorem plainDraft_tells (kind : RecordKind) (date : Date) (subject code : Nat) (value : Option Int) (s : State) :
    tells (plainDraft kind date subject code value s) kind date subject code value :=
  ⟨rfl, rfl, rfl, rfl, rfl, rfl⟩

/-- A point whose movement is counted: the counter goes round modulo 2^24, and service-due is set at the wrap where an interval asks for it. -/
def Point.counted (x : Point) (interval : Nat) : Point :=
  { x with
    service := (x.service + 1) % 16777216
    serviceDue := x.serviceDue || (decide (x.service = 16777215) && decide (0 < interval)) }

theorem Point.counted_below {x : Point} (interval : Nat) (h : x.service < 16777215) :
    x.counted interval = { x with service := x.service + 1 } := by
  rw [Point.counted, Nat.mod_eq_of_lt (by omega), decide_eq_false (Nat.ne_of_lt h), Bool.false_and, Bool.or_false]

theorem Point.counted_top {x : Point} (interval : Nat) (h : x.service = 16777215) :
    x.counted interval = { x with service := 0, serviceDue := x.serviceDue || decide (0 < interval) } := by
  rw [Point.counted, h, decide_eq_true rfl, Bool.true_and]

section
variable {p : PointNo} {dfn : PointDef} {s : State} (date : Date)

/-- Without a wrap, or with an interval of 0, the point is counted and nothing is written. -/
theorem countMovement_silent (hdefn : s.points[p].defn = some dfn) (hbound : s.points[p].service ≤ 16777215)
    (h : s.points[p].service < 16777215 ∨ dfn.interval = 0) :
    countMovement p date s = setPoint p (s.points[p].counted dfn.interval) s := by
  by_cases hlow : s.points[p].service < 16777215
  · rw [Point.counted_below _ hlow]
    exact if_pos hlow
  · have hinterval : dfn.interval = 0 := h.resolve_left hlow
    rw [Point.counted_top _ (by omega), hinterval, decide_eq_false (Nat.lt_irrefl 0), Bool.or_false]
    simp only [countMovement, if_neg hlow, hdefn, if_pos hinterval]

/-- At the wrap, an interval above 0 has SERVICE written. -/
theorem countMovement_served (hdefn : s.points[p].defn = some dfn) (htop : s.points[p].service = 16777215) (hinterval : 0 < dfn.interval) :
    countMovement p date s = writeRecord
      (plainDraft .service date p.val 0 (some dfn.interval) (setPoint p (s.points[p].counted dfn.interval) s))
      (setPoint p (s.points[p].counted dfn.interval) s) := by
  rw [Point.counted_top _ htop, decide_eq_true hinterval, Bool.or_true]
  simp only [countMovement, if_neg (show ¬ s.points[p].service < 16777215 by omega), hdefn,
    if_neg (show dfn.interval ≠ 0 by omega)]

theorem countMovement_point (hdefn : s.points[p].defn = some dfn) (hbound : s.points[p].service ≤ 16777215) :
    (countMovement p date s).points[p] = s.points[p].counted dfn.interval := by
  by_cases h : s.points[p].service < 16777215 ∨ dfn.interval = 0
  · rw [countMovement_silent date hdefn hbound h, setPoint_self]
  · rw [countMovement_served date hdefn (by omega) (by omega), writeRecord_points, setPoint_self]

theorem countMovement_journal (hdefn : s.points[p].defn = some dfn) (hbound : s.points[p].service ≤ 16777215)
    (h : s.points[p].service < 16777215 ∨ dfn.interval = 0) : (countMovement p date s).journal = s.journal := by
  rw [countMovement_silent date hdefn hbound h]
  exact latchIf_journal ..

theorem countMovement_service (hdefn : s.points[p].defn = some dfn) (htop : s.points[p].service = 16777215) (hinterval : 0 < dfn.interval) :
    ∃ x, justWrote x (s.setPoints (countMovement p date s).points) (countMovement p date s) ∧
      tells x .service date p.val 0 (some dfn.interval) := by
  rw [countMovement_served date hdefn htop hinterval, writeRecord_points]
  exact ⟨_, (repoints_setPoint p (s.points[p].counted dfn.interval) s rfl).justWrote (writeRecord_justWrote _ _), plainDraft_tells ..⟩

end

/-- A movement whose outcome `q` was written and handed on from `s` to `v`, with the counter as it stood, is counted. -/
theorem movementCounted_countMovement {p : PointNo} {dfn : PointDef} {outcome : PointOutcome} {q : Record} {date : Date} {s u v : State}
    {points : Vector Point 32} (hwrote : justWrote q (s.setPoints points) u)
    (hdelivered : deliveredToEntries p outcome v.points[p].state date u v) (hdefn : v.points[p].defn = some dfn)
    (hservice : v.points[p].service = s.points[p].service) (hdue : v.points[p].serviceDue = s.points[p].serviceDue)
    (hbound : s.points[p].service ≤ 16777215) :
    movementCounted p dfn.interval outcome q date s (countMovement p date v) := by
  have hbound' : v.points[p].service ≤ 16777215 := hservice ▸ hbound
  have hpoint := countMovement_point date hdefn hbound'
  have hcounter : (countMovement p date v).points[p].service = (s.points[p].service + 1) % 16777216 := by
    rw [hpoint, Point.counted, hservice]
  have hflag : (countMovement p date v).points[p].serviceDue =
      (s.points[p].serviceDue || (decide (s.points[p].service = 16777215) && decide (0 < dfn.interval))) := by
    rw [hpoint, Point.counted, hservice, hdue]
  refine ⟨points, u, v, hwrote, by rw [hpoint]; exact hdelivered, fun hlow => ?_, fun htop => ⟨?_, fun hnone => ?_, fun hsome => ?_⟩⟩
  · refine ⟨hcounter.trans (Nat.mod_eq_of_lt (by omega)), ?_, countMovement_journal date hdefn hbound' (.inl (hservice ▸ hlow))⟩
    rw [hflag, decide_eq_false (Nat.ne_of_lt hlow), Bool.false_and, Bool.or_false]
  · rw [hcounter, htop]
  · refine ⟨?_, countMovement_journal date hdefn hbound' (.inr hnone)⟩
    rw [hflag, hnone, decide_eq_false (Nat.lt_irrefl 0), Bool.and_false, Bool.or_false]
  · refine ⟨?_, countMovement_service date hdefn (hservice.trans htop) hsome⟩
    rw [hflag, htop, decide_eq_true rfl, decide_eq_true hsome, Bool.and_true, Bool.or_true]

/-! ### The end of a movement: its outcome, and the counter after it -/

section
variable {p : PointNo} {dfn : PointDef} {outcome : PointOutcome} {s : State} (date : Date) (value : Option Nat) (uncertain : Bool)

theorem outcomeCounted_point (h : outcome.failure = false) (hdefn : s.points[p].defn = some dfn)
    (hbound : s.points[p].service ≤ 16777215) :
    (countMovement p date (writeOutcome p outcome date value uncertain s)).points[p] =
      ({ s.points[p] with lastOutcome := some (outcome, date) } : Point).counted dfn.interval := by
  have hpoint := writeOutcome_point p date value uncertain s h
  rw [countMovement_point (dfn := dfn) date (by rw [hpoint]; exact hdefn) (by rw [hpoint]; exact hbound), hpoint]

/-- An outcome that ends a movement, after a change of the point that leaves its counter alone. -/
theorem outcomeCounted_spec {base : State} (hrepoints : Repoints base s) (h : outcome.failure = false)
    (hdefn : s.points[p].defn = some dfn) (hservice : s.points[p].service = base.points[p].service)
    (hdue : s.points[p].serviceDue = base.points[p].serviceDue) (hbound : base.points[p].service ≤ 16777215) :
    let q := outcomeRecord p outcome date value uncertain
    let t := countMovement p date (writeOutcome p outcome date value uncertain s)
    wroteFirst q base t ∧ movementCounted p dfn.interval outcome q date base t := by
  obtain ⟨u, hwrote, hdelivered⟩ := writeOutcome_spec p date value uncertain s h
  have hpoint := writeOutcome_point p date value uncertain s h
  have hbefore : Repoints base (withOutcome p outcome date s) := hrepoints.trans (repoints_withOutcome ..)
  refine ⟨hbefore.wroteFirst hwrote (hdelivered.follows.trans (follows_countMovement ..)),
    movementCounted_countMovement (hbefore.justWrote hwrote) ?_ ?_ ?_ ?_ hbound⟩
  · rw [hpoint]
    exact hdelivered
  · rw [hpoint]
    exact hdefn
  · rw [hpoint]
    exact hservice
  · rw [hpoint]
    exact hdue

end

/-! ### MOVED_LATE (R131) -/

/-- A point that a late movement has brought to a side, before its outcome is written. -/
def Point.arrived (x : Point) (side : Side) (call loss found : Date) : Point :=
  { x with state := .detected side, lastStroke := some (durationMs found loss), lastOperate := some (durationMs found call) }

/-- What flags an outcome that carries a stroke UNCERTAIN (R134, R135). -/
def doubtfulStroke (call loss found : Date) : Bool :=
  doubtfulDate call || doubtfulDate loss || doubtfulDate found || outOfOrder found loss || outOfOrder found call

theorem doubtfulStroke_iff (call loss found : Date) :
    doubtfulStroke call loss found = true ↔ doubtfulDate call = true ∨ doubtfulDate loss = true ∨ doubtfulDate found = true ∨
      found.time < loss.time ∨ found.time < call.time := by
  simp [doubtfulStroke, outOfOrder, or_assoc]

theorem lateMovementEnds_eq (p : PointNo) (side : Side) (call loss found : Date) (s : State) :
    lateMovementEnds p side call loss found s =
      countMovement p found (writeOutcome p .movedLate found (some (durationMs found loss)) (doubtfulStroke call loss found)
        (setPoint p (s.points[p].arrived side call loss found) s)) := rfl

section
variable {p : PointNo} {dfn : PointDef} {s : State} (side : Side) (call loss found : Date)

/-- The point after a late movement: the trends are none of what changes. -/
theorem lateMovementEnds_point (hdefn : s.points[p].defn = some dfn) (hbound : s.points[p].service ≤ 16777215) :
    (lateMovementEnds p side call loss found s).points[p] =
      ({ s.points[p].arrived side call loss found with lastOutcome := some (.movedLate, found) } : Point).counted dfn.interval := by
  rw [lateMovementEnds_eq, outcomeCounted_point (dfn := dfn) found _ _ rfl (by rw [setPoint_self]; exact hdefn)
    (by rw [setPoint_self]; exact hbound), setPoint_self]

theorem lateMovementEnds_timed {base : State} (h : Repoints base s) (hdefn : s.points[p].defn = some dfn)
    (hservice : s.points[p].service = base.points[p].service) (hdue : s.points[p].serviceDue = base.points[p].serviceDue)
    (hbound : base.points[p].service ≤ 16777215) :
    movementTimed p dfn side .movedLate 2 call loss found base (lateMovementEnds p side call loss found s) := by
  have harrived : (setPoint p (s.points[p].arrived side call loss found) s).points[p] = s.points[p].arrived side call loss found :=
    setPoint_self ..
  obtain ⟨hfirst, hcounted⟩ := outcomeCounted_spec (dfn := dfn) found (some (durationMs found loss)) (doubtfulStroke call loss found)
    (h.trans (repoints_setPoint p (s.points[p].arrived side call loss found) s rfl)) (outcome := .movedLate) rfl
    (by rw [harrived]; exact hdefn) (by rw [harrived]; exact hservice) (by rw [harrived]; exact hdue) hbound
  have hpoint := lateMovementEnds_point side call loss found hdefn (hservice ▸ hbound)
  rw [movementTimed, hpoint, ← durationMs_eq, ← durationMs_eq, ← hservice]
  exact ⟨⟨_, hfirst, outcomeRecord_tells .., doubtfulStroke_iff .., hcounted⟩, rfl, rfl, rfl, rfl⟩

end

/-! ### A record in OVERTIME -/

/-- A level comes to a known point's references one after the other (R125). -/
theorem deliverToPoint_level {p : PointNo} {dfn : PointDef} {station : Station} {input : InputNo} {r : Record} {level : Level}
    {date : Date} {s : State} (hknown : s.points[p].state ≠ .unknown) (hdefn : s.points[p].defn = some dfn)
    (hlevel : conditionFrom r = some (.known level date)) :
    deliverToPoint station input r p s = (dfn.naming station input).foldl (takeKnown p level date) s := by
  simp only [deliverToPoint, hdefn, hlevel, if_neg hknown]

theorem setView_point (p : PointNo) (ref : Ref) (c : Condition) (s : State) :
    (setView p ref c s).points[p] = { s.points[p] with views := s.points[p].views.put ref c } := setPoint_self ..

theorem repoints_setView (p : PointNo) (ref : Ref) (c : Condition) (s : State) : Repoints s (setView p ref c s) :=
  repoints_setPoint p _ s rfl

section
variable {p : PointNo} {toward : Side} {call loss : Date} {s : State}

/-- A level change in OVERTIME: a call clears start-failed (R138), then R131 acts. -/
theorem changeLevel_overtime (ref : Ref) (level : Level) (date : Date) (hstate : s.points[p].state = .overtime toward call loss) :
    changeLevel p ref level date s = changeOvertime p toward call loss ref level date
      (if ref.isCall then setPoint p { s.points[p] with startFailed := false } s else s) := by
  have hkept : (if ref.isCall then setPoint p { s.points[p] with startFailed := false } s else s).points[p].state =
      .overtime toward call loss := by
    split
    · rw [setPoint_self]
      exact hstate
    · exact hstate
  unfold changeLevel
  dsimp only
  rw [hkept]

/-- In OVERTIME either detection becoming ACTIVE ends the movement, whichever side it went to. -/
theorem changeOvertime_detection (side : Side) (found : Date) :
    changeOvertime p toward call loss side.detection .active found s = lateMovementEnds p side call loss found s := by
  have hother : side = toward ∨ (side = toward.other ∧ side.detection ≠ toward.detection) := by
    cases side <;> cases toward <;> decide
  rcases hother with rfl | ⟨rfl, hne⟩
  · exact if_pos ⟨rfl, rfl⟩
  · unfold changeOvertime
    rw [if_neg fun h => hne h.1, if_pos ⟨rfl, rfl⟩]

/-- In OVERTIME a call makes no transition. -/
theorem changeOvertime_call (side : Side) (level : Level) (date : Date) :
    changeOvertime p toward call loss side.call level date s = s := by
  have hcall : ∀ x : Side, side.call ≠ x.detection := by
    intro x
    cases side <;> cases x <;> decide
  unfold changeOvertime
  rw [if_neg fun h => hcall _ h.1, if_neg fun h => hcall _ h.1]

theorem takeKnown_overtime_detection (side : Side) (found : Date) {before : Date}
    (hstate : s.points[p].state = .overtime toward call loss)
    (hview : s.points[p].views.at side.detection = .known .inactive before) :
    takeKnown p .active found s side.detection =
      lateMovementEnds p side call loss found (setView p side.detection (.known .active found) s) := by
  have hcall : side.detection.isCall = false := by cases side <;> rfl
  have hchanges : (s.points[p].views.at side.detection).level ≠ some .active := by
    rw [hview, Condition.level]
    decide
  have hviewed : (setView p side.detection (.known .active found) s).points[p].state = .overtime toward call loss := by
    rw [setView_point]
    exact hstate
  unfold takeKnown
  dsimp only
  rw [if_neg hchanges, changeLevel_overtime _ _ _ hviewed, hcall, if_neg Bool.false_ne_true, changeOvertime_detection]

theorem takeKnown_overtime_call (side : Side) (level : Level) (found : Date)
    (hstate : s.points[p].state = .overtime toward call loss) :
    (takeKnown p level found s side.call).points[p].state = .overtime toward call loss := by
  have hcall : side.call.isCall = true := by cases side <;> rfl
  have hviewed : (setView p side.call (.known level found) s).points[p].state = .overtime toward call loss := by
    rw [setView_point]
    exact hstate
  unfold takeKnown
  dsimp only
  split
  · exact hviewed
  · rw [changeLevel_overtime _ _ _ hviewed, changeOvertime_call, hcall, if_pos rfl, setPoint_self]
    exact hviewed

end

/-! ### The statement -/

/-- Settles O40: the detection's view is set without a record, and what then ends is a late movement on the side it stands for; a call only
clears start-failed. -/
theorem anOvertimeMovementEndsLate : Obligations.AnOvertimeMovementEndsLate := by
  unfold Obligations.AnOvertimeMovementEndsLate
  intro s p dfn toward side call loss station input r level found hstate hdefn hlevel hbound
  have hknown : s.points[p].state ≠ .unknown := by rw [hstate]; exact nofun
  refine ⟨by rw [hstate]; rfl, fun before hnaming hactive hview => ?_, fun side' hnaming => ?_⟩
  · subst hactive
    rw [deliverToPoint_level hknown hdefn hlevel, hnaming, List.foldl_cons, List.foldl_nil,
      takeKnown_overtime_detection side found hstate hview]
    set viewed := setView p side.detection (.known .active found) s
    have hpoint : viewed.points[p] = { s.points[p] with views := s.points[p].views.put side.detection (.known .active found) } :=
      setView_point ..
    have hdefn' : viewed.points[p].defn = some dfn := by rw [hpoint]; exact hdefn
    have hservice : viewed.points[p].service = s.points[p].service := by rw [hpoint]
    obtain ⟨⟨q, hfirst, htells, -, hcounted⟩, hside, hstroke, hoperate, hcounter⟩ :=
      lateMovementEnds_timed side call loss found (repoints_setView p side.detection (.known .active found) s) hdefn' hservice
        (by rw [hpoint]) hbound
    have hend := lateMovementEnds_point side call loss found hdefn' (hservice ▸ hbound)
    refine ⟨⟨q, hfirst, htells, hcounted⟩, hside, hstroke, hoperate, ?_, ?_, hcounter⟩
    · rw [hend, hpoint]
      rfl
    · rw [hend, hpoint]
      rfl
  · rw [deliverToPoint_level hknown hdefn hlevel, hnaming, List.foldl_cons, List.foldl_nil]
    exact takeKnown_overtime_call side' level found hstate

end Sys2Proof.Machine
end
